-- ==== Sys2Proof/Word.lean ====
section
/-! DEFINITION. The word types of the core (spec 00_scope R8: unsigned integers of a stated width, every `+`, `-`, `*`
taken modulo 2^width) and the one conversion between widths that the commands use. -/
namespace Sys2Proof

/-- `u8`: a byte of IN or PAD (spec R8). -/
abbrev Byte := BitVec 8

/-- `u32`: the words of the 32-bit family, and a command word (spec R8, R80). -/
abbrev Word32 := BitVec 32

/-- `u64`: the operand, seed and result registers (spec R8, R31–R33). -/
abbrev Word64 := BitVec 64

/-- `v[31:0]` of a u64 (spec R7, R9 `trunc_32`). -/
def Word64.low32 (v : Word64) : Word32 := v.setWidth 32

/-- `zext_64(v)` of a u32 (spec R9). -/
def Word32.zext64 (v : Word32) : Word64 := v.setWidth 64

end Sys2Proof
end

