-- ==== Sys2Proof/Config.lean ====
section
/-! DEFINITION. What the platform fixes and the spec leaves open (spec 00_scope R6), and the one free value. An `opaque`
constant has no body here: no proof can use what it is, so a claim that names it holds for every value. -/
namespace Sys2Proof

/-- `N_CTX − 1`. `N_CTX` is OPEN, "any integer ≥ 1" (spec R6, D2). Log 4. -/
opaque Config.extraContexts : Nat

/-- `N_CTX`, at least 1 by its form (spec R6, R30). Log 4. -/
def Config.nCtx : Nat := Config.extraContexts + 1

/-- `CAP`, the platform capability word, OPEN (spec R6, R41, D25). Log 5. -/
opaque Config.platformCap : BitVec 2

/-- `SEED64_SUB`, at its normative value K0 (spec R6, C2, D18). Log 6. -/
def Config.seed64Sub : Word64 := 0xc3a5c85c97cb3127#64

/-- FREE VALUE: the byte that `S[i]` stands for outside `0 ≤ i < |S|`, where `rd64`, `rd32` and `S[i]` are undefined
(spec R110–R112). No command reaches it (spec R297(b)). Log 9. -/
opaque Config.outOfRangeByte : Nat → Byte

end Sys2Proof
end

