-- ==== Sys2Proof/Syntax.lean ====
section
/-! DEFINITION. The commands of the core: one constructor per row of spec/opcode_table.json, in the table's order
(spec 30_encoding R86), with the fields of its format (R81, R82). -/
namespace Sys2Proof

/-- The registers a `MOV` can write and the host can `SET`: field D of spec R81, and R37. -/
inductive OpReg where
  | arg0 | arg1 | arg2 | seed0 | seed1
  deriving DecidableEq, Repr

/-- The result registers: field S of spec R81. -/
inductive ResReg where
  | res0 | res1 | res2 | res3
  deriving DecidableEq, Repr

/-- The 27 commands (spec R86). -/
inductive Instr where
  /-- 0x01, spec R157. -/
  | hash32
  /-- 0x02, spec R178. -/
  | hash64
  /-- 0x03, spec R179. -/
  | hash64Seed
  /-- 0x04, spec R205. -/
  | murmur128
  /-- 0x05, spec R206. -/
  | murmur128Seed
  /-- 0x06, spec R229. -/
  | hash128
  /-- 0x07, spec R230. -/
  | hash128Seed
  /-- 0x08, spec R231. -/
  | hash128Crc
  /-- 0x09, spec R232. -/
  | hash128CrcSeed
  /-- 0x0A, spec R262. -/
  | hash256Crc
  /-- 0x0B, spec R263. -/
  | hash256CrcSeed
  /-- 0x10, spec R130. -/
  | readle64
  /-- 0x11, spec R131. -/
  | readle32
  /-- 0x12, spec R132. -/
  | shiftmix
  /-- 0x13, spec R133. -/
  | hashlen16
  /-- 0x14, spec R134. -/
  | hashlen16m
  /-- 0x15, spec R135. -/
  | fmix32
  /-- 0x16, spec R136. -/
  | mur32
  /-- 0x17, spec R137: `ROTR64 #r`, r the 6-bit IMM (R83). -/
  | rotr64 (r : BitVec 6)
  /-- 0x18, spec R138: `ROTR32 #r`, r the 6-bit IMM, admitted only below 32 (R83, R87(d)). -/
  | rotr32 (r : BitVec 6)
  /-- 0x19, spec R139. -/
  | bswap64
  /-- 0x1A, spec R140. -/
  | bswap32
  /-- 0x1B, spec R141. -/
  | weakhash32
  /-- 0x1C, spec R142. -/
  | crc32c
  /-- 0x20, spec R143: `MOV dst, RESn` (R84). -/
  | mov (dst : OpReg) (src : ResReg)
  /-- 0x21, spec R144. -/
  | rdsel
  /-- 0x22, spec R145. -/
  | rdcap
  deriving DecidableEq, Repr

end Sys2Proof
end

