-- ==== Sys2Proof/WellFormed.lean ====
section
/-! DEFINITION. Which terms of `Instr` stand for a legal command word. The operand types already exclude a reserved D
(spec R87(e)); the one check left is the rotate amount of `ROTR32` (spec R83, R87(d)). -/
namespace Sys2Proof

/-- `ROTR32` admits only amounts 0..31; every other term is well formed (spec R83, R87(d)). -/
def Instr.wellFormed : Instr → Bool
  | .rotr32 r => decide (r.toNat < 32)
  | .hash32 | .hash64 | .hash64Seed | .murmur128 | .murmur128Seed | .hash128 | .hash128Seed | .hash128Crc
  | .hash128CrcSeed | .hash256Crc | .hash256CrcSeed | .readle64 | .readle32 | .shiftmix | .hashlen16
  | .hashlen16m | .fmix32 | .mur32 | .rotr64 _ | .bswap64 | .bswap32 | .weakhash32 | .crc32c | .mov _ _
  | .rdsel | .rdcap => true

end Sys2Proof
end

