-- ==== Sys2Proof/Decode.lean ====
section
/-! DEFINITION. The decoder of a 32-bit command word (spec 30_encoding R80–R89), total, naming the condition of R87 that
makes a word illegal; after it the encoder (R82, R90). -/
namespace Sys2Proof

/-- Why a command word is illegal: the conditions (a)–(e) of spec R87. -/
inductive Illegal where
  /-- (a) `OPC` is reserved. -/
  | reservedOpcode
  /-- (b) `RSV ≠ 0`. -/
  | reservedBits
  /-- (c) a field outside the opcode's format is non-zero. -/
  | fieldOutsideFormat
  /-- (d) `ROTR32` with `IMM ≥ 32`. -/
  | rotateTooLarge
  /-- (e) `MOV` with `D ≥ 5`. -/
  | badDestination
  deriving DecidableEq, Repr

/-- The fields of a command word (spec R81). -/
structure Fields where
  opc : BitVec 8
  imm : BitVec 6
  s   : BitVec 2
  d   : BitVec 3
  rsv : BitVec 13
  deriving DecidableEq, Repr

/-- `OPC = cw[7:0]`, `IMM = cw[13:8]`, `S = cw[15:14]`, `D = cw[18:16]`, `RSV = cw[31:19]` (spec R81). -/
def fieldsOf (cw : Word32) : Fields where
  opc := cw.extractLsb' 0 8
  imm := cw.extractLsb' 8 6
  s   := cw.extractLsb' 14 2
  d   := cw.extractLsb' 16 3
  rsv := cw.extractLsb' 19 13

/-- What an assigned opcode names: a command of format N, or one of the three with fields (spec R82, R86). -/
inductive Opcode where
  | plain (i : Instr)
  | rotr64
  | rotr32
  | mov
  deriving DecidableEq, Repr

/-- The opcode map (spec R86); `none` is a reserved opcode (R87(a)). -/
def opcodeMap (opc : BitVec 8) : Option Opcode :=
  match opc.toNat with
  | 0x01 => some (.plain .hash32)
  | 0x02 => some (.plain .hash64)
  | 0x03 => some (.plain .hash64Seed)
  | 0x04 => some (.plain .murmur128)
  | 0x05 => some (.plain .murmur128Seed)
  | 0x06 => some (.plain .hash128)
  | 0x07 => some (.plain .hash128Seed)
  | 0x08 => some (.plain .hash128Crc)
  | 0x09 => some (.plain .hash128CrcSeed)
  | 0x0A => some (.plain .hash256Crc)
  | 0x0B => some (.plain .hash256CrcSeed)
  | 0x10 => some (.plain .readle64)
  | 0x11 => some (.plain .readle32)
  | 0x12 => some (.plain .shiftmix)
  | 0x13 => some (.plain .hashlen16)
  | 0x14 => some (.plain .hashlen16m)
  | 0x15 => some (.plain .fmix32)
  | 0x16 => some (.plain .mur32)
  | 0x17 => some .rotr64
  | 0x18 => some .rotr32
  | 0x19 => some (.plain .bswap64)
  | 0x1A => some (.plain .bswap32)
  | 0x1B => some (.plain .weakhash32)
  | 0x1C => some (.plain .crc32c)
  | 0x20 => some .mov
  | 0x21 => some (.plain .rdsel)
  | 0x22 => some (.plain .rdcap)
  | _ => none

/-- Field D (spec R81): 5, 6 and 7 are reserved (R84). -/
def destOf (d : BitVec 3) : Option OpReg :=
  match d.toNat with
  | 0 => some .arg0
  | 1 => some .arg1
  | 2 => some .arg2
  | 3 => some .seed0
  | 4 => some .seed1
  | _ => none

/-- Field S (spec R81, R84): an unsigned 2-bit index of RES. -/
def sourceOf (s : BitVec 2) : ResReg :=
  match s.toNat with
  | 0 => .res0
  | 1 => .res1
  | 2 => .res2
  | _ => .res3

/-- Format N: every field outside OPC is 0 (spec R82). -/
def decodePlain (i : Instr) (f : Fields) : Except Illegal Instr :=
  if f.imm = 0 ∧ f.s = 0 ∧ f.d = 0 then .ok i else .error .fieldOutsideFormat

/-- Format I for `ROTR64`: every amount is admitted (spec R82, R83). -/
def decodeRotr64 (f : Fields) : Except Illegal Instr :=
  if f.s = 0 ∧ f.d = 0 then .ok (.rotr64 f.imm) else .error .fieldOutsideFormat

/-- Format I for `ROTR32`: amounts below 32 (spec R82, R83, R87(d)). -/
def decodeRotr32 (f : Fields) : Except Illegal Instr :=
  if f.s = 0 ∧ f.d = 0 then
    if f.imm.toNat < 32 then .ok (.rotr32 f.imm) else .error .rotateTooLarge
  else .error .fieldOutsideFormat

/-- Format M (spec R82, R84, R87(e)). -/
def decodeMov (f : Fields) : Except Illegal Instr :=
  if f.imm = 0 then
    match destOf f.d with
    | some dst => .ok (.mov dst (sourceOf f.s))
    | none => .error .badDestination
  else .error .fieldOutsideFormat

/-- The decoder: the command a word encodes, or the condition of spec R87 that makes it illegal, tried in the order
(a), (b), then those of the opcode's format. -/
def decode (cw : Word32) : Except Illegal Instr :=
  let f := fieldsOf cw
  match opcodeMap f.opc with
  | none => .error .reservedOpcode
  | some op =>
    if f.rsv = 0 then
      match op with
      | .plain i => decodePlain i f
      | .rotr64 => decodeRotr64 f
      | .rotr32 => decodeRotr32 f
      | .mov => decodeMov f
    else .error .reservedBits

/-- The command read from an instruction whose bits are `w`, numbered as spec/opcode_table.json numbers them: a command
word is ONE 32-bit number (spec R80), so bit k of `w` is `cw[k]`. Bits at and above `nbits` count as 0. A value that
does not fit one word is no command. -/
def decodeTableWord (nbits w : Nat) : Option Instr :=
  let v := w % 2 ^ nbits
  if v < 2 ^ 32 then
    match decode (BitVec.ofNat 32 v) with
    | .ok i => some i
    | .error _ => none
  else none

/-- The opcode of a command (spec R86). -/
def opcodeOf : Instr → BitVec 8
  | .hash32 => 0x01
  | .hash64 => 0x02
  | .hash64Seed => 0x03
  | .murmur128 => 0x04
  | .murmur128Seed => 0x05
  | .hash128 => 0x06
  | .hash128Seed => 0x07
  | .hash128Crc => 0x08
  | .hash128CrcSeed => 0x09
  | .hash256Crc => 0x0A
  | .hash256CrcSeed => 0x0B
  | .readle64 => 0x10
  | .readle32 => 0x11
  | .shiftmix => 0x12
  | .hashlen16 => 0x13
  | .hashlen16m => 0x14
  | .fmix32 => 0x15
  | .mur32 => 0x16
  | .rotr64 _ => 0x17
  | .rotr32 _ => 0x18
  | .bswap64 => 0x19
  | .bswap32 => 0x1A
  | .weakhash32 => 0x1B
  | .crc32c => 0x1C
  | .mov _ _ => 0x20
  | .rdsel => 0x21
  | .rdcap => 0x22

/-- The D code of a register (spec R81). -/
def destCode : OpReg → BitVec 3
  | .arg0 => 0
  | .arg1 => 1
  | .arg2 => 2
  | .seed0 => 3
  | .seed1 => 4

/-- The S code of a result register (spec R81). -/
def sourceCode : ResReg → BitVec 2
  | .res0 => 0
  | .res1 => 1
  | .res2 => 2
  | .res3 => 3

/-- The encoder (spec R90): `cw = OPC`, `cw = OPC | r << 8` for format I, `cw = OPC | n << 14 | d << 16` for format M;
every other field is 0. -/
def encode (i : Instr) : Word32 :=
  let opc := (opcodeOf i).setWidth 32
  match i with
  | .rotr64 r => opc ||| r.setWidth 32 <<< 8
  | .rotr32 r => opc ||| r.setWidth 32 <<< 8
  | .mov dst src => opc ||| (sourceCode src).setWidth 32 <<< 14 ||| (destCode dst).setWidth 32 <<< 16
  | .hash32 | .hash64 | .hash64Seed | .murmur128 | .murmur128Seed | .hash128 | .hash128Seed | .hash128Crc
  | .hash128CrcSeed | .hash256Crc | .hash256CrcSeed | .readle64 | .readle32 | .shiftmix | .hashlen16
  | .hashlen16m | .fmix32 | .mur32 | .bswap64 | .bswap32 | .weakhash32 | .crc32c | .rdsel | .rdcap => opc

end Sys2Proof
end

