-- ==== Sys2Proof/Machine/State.lean ====
section
/-! DEFINITION. The state of the core as plain data (spec 10_state), what a host can present to it (spec 30_encoding R91,
70 R320), the reasons a step can stop, and the state right after reset (spec R46). -/
namespace Sys2Proof.Machine

/-- A general register: its 64 bits and its hidden `written` bit (spec R31–R33, R36). -/
structure Reg where
  value   : Word64
  written : Bool
  deriving DecidableEq, Repr

/-- A byte sequence as (offset, byte) cells. Canonical form: offsets 0, 1, … in rising order (`Memory.wf`); an offset
that is not listed does not exist. -/
abbrev Memory := List Host.Cell

/-- The canonical form of an input: the cells stand at offsets 0, 1, …, LEN − 1, and LEN fits 64 bits (spec R34). -/
def Memory.wf (m : Memory) : Bool :=
  decide (m.map Prod.fst = List.range m.length) && decide (m.length < 2 ^ 64)

/-- The input buffer IN with its `written` bit; LEN is the number of its cells (spec R34, R36). -/
structure InBuf where
  cells   : Memory
  written : Bool
  deriving DecidableEq, Repr

/-- One host context (spec R30): the registers of R31–R36 and the command index of R39. -/
structure Context where
  arg0      : Reg
  arg1      : Reg
  arg2      : Reg
  seed0     : Reg
  seed1     : Reg
  res0      : Reg
  res1      : Reg
  res2      : Reg
  res3      : Reg
  inBuf     : InBuf
  /-- FAULT, the status output of a command (spec R35, R290). -/
  fault     : BitVec 8
  /-- FAULT_INFO (spec R35, R290). -/
  faultInfo : Word64
  /-- The index of the next command in the host's command list; it does not wrap (spec R39). -/
  cmdIndex  : Nat
  deriving DecidableEq, Repr

/-- SEL, the 2-bit backend selector: its four values by name (spec R40; their codes are `Selector.code`). -/
inductive Selector where
  | uninit | generic | x86 | arm
  deriving DecidableEq, Repr

/-- What the host can `READ` (spec R91, R37): every register of a context. SEL and CAP are read through commands only. -/
inductive HostReg where
  | operand (r : OpReg)
  | result (r : ResReg)
  | inBuf
  | len
  | fault
  | faultInfo
  deriving DecidableEq, Repr

/-- What a `READ` returns: a 64-bit word, or the bytes of IN (spec R91). -/
inductive HostValue where
  | word (v : Word64)
  | bytes (bs : List Byte)
  deriving DecidableEq, Repr

/-- One line of the host: a command word presented by a context (spec R80), a host action of a context (R91), or the
reset of the whole core (R320). `SEED128 lo, hi` is two `set` lines (R92). -/
inductive HostLine where
  | command (ctx : Nat) (cw : Word32)
  | set (ctx : Nat) (r : OpReg) (v : Word64)
  | loadIn (ctx : Nat) (bs : List Byte)
  | read (ctx : Nat) (r : HostReg)
  | reset
  deriving DecidableEq, Repr

/-- The state of the core. -/
structure State where
  /-- The contexts, number 0 first; their number is `N_CTX` (spec R30, R303). -/
  ctxs    : List Context
  /-- SEL, shared (spec R40). -/
  sel     : Selector
  /-- CAP, shared and constant (spec R41). -/
  cap     : BitVec 2
  /-- The model's own: the context whose command `exec` runs (log 3). -/
  cur     : Nat
  /-- The model's own: the host lines not yet taken, oldest first, in one interleaving (log 1). -/
  inputs  : List HostLine
  /-- The model's own: what the last `READ` returned; `none` is "no value" (spec R91, log 12). -/
  readOut : Option HostValue
  deriving DecidableEq, Repr

/-- The reasons the machine stops with a fault. An instruction's own exceptions are no such stop: they are recorded in
FAULT and FAULT_INFO and the machine goes on (spec R295). -/
inductive Fault where
  /-- Raised by any line or command of a context whose number is not below `N_CTX`: there is no such context (spec R30,
  R303). Safe: the hardware has no such run (log 10). -/
  | noSuchContext
  deriving DecidableEq, Repr

/-- The reasons the machine refuses a step. -/
inductive Refusal where
  /-- Raised by an arm of `exec` for an instruction without a meaning. No arm raises it. Safe. -/
  | notModelled (mnemonic : String)
  /-- Raised by `LOADIN` of 2^64 bytes or more, which LEN cannot express (spec D16, ID-12: `refuse`). Safe (log 11). -/
  | inputTooLong
  deriving DecidableEq, Repr

/-- A register at reset: `written` = 0; the value, which the spec leaves unspecified, is named 0 (spec R46, log 7). -/
def Reg.reset : Reg := { value := 0, written := false }

/-- IN at reset: no buffer, `written` = 0 (spec R46, log 8). -/
def InBuf.reset : InBuf := { cells := [], written := false }

/-- A context at reset (spec R46, R321). -/
def Context.reset : Context where
  arg0 := Reg.reset
  arg1 := Reg.reset
  arg2 := Reg.reset
  seed0 := Reg.reset
  seed1 := Reg.reset
  res0 := Reg.reset
  res1 := Reg.reset
  res2 := Reg.reset
  res3 := Reg.reset
  inBuf := InBuf.reset
  fault := 0
  faultInfo := 0
  cmdIndex := 0

/-- The machine right after reset (spec R46, R320–R322): `N_CTX` contexts, SEL = UNINIT, CAP the platform's, and every
context waiting for its first line. -/
def State.reset : State where
  ctxs := List.replicate Config.nCtx Context.reset
  sel := .uninit
  cap := Config.platformCap
  cur := 0
  inputs := []
  readOut := none

end Sys2Proof.Machine
end

