-- ==== Sys2Proof/Machine/Primitives.lean ====
section
/-! DEFINITION. The constants (spec 00_scope R13) and the primitive mixers (spec 40_primitives R113–R125). All arithmetic
is unsigned and wraps (R8). -/
namespace Sys2Proof.Machine

/-- Spec R13. -/
def K0 : Word64 := 0xc3a5c85c97cb3127#64
/-- Spec R13. -/
def K1 : Word64 := 0xb492b66fbe98f273#64
/-- Spec R13. -/
def K2 : Word64 := 0x9ae16a3b2f90404f#64
/-- The multiplier of the two-argument `hashLen16` (spec R13, R119). -/
def KMUL : Word64 := 0x9ddfea08eb382d69#64
/-- Spec R13, R122. -/
def C1 : Word32 := 0xcc9e2d51#32
/-- Spec R13, R122. -/
def C2 : Word32 := 0x1b873593#32
/-- Spec R13, R120. -/
def F1 : Word32 := 0x85ebca6b#32
/-- Spec R13, R120. -/
def F2 : Word32 := 0xc2b2ae35#32
/-- The addend of `mur32` and of the 32-bit family's step (spec R13, R122). -/
def M5 : Word32 := 0xe6546b64#32
/-- The CRC32C polynomial in reflected form (spec R13, R124). -/
def crcPoly : Word32 := 0x82F63B78#32

/-- Right rotation of a u64 for `r ≤ 63` (spec R115). -/
def rotr64 (v : Word64) (r : Nat) : Word64 :=
  if r = 0 then v else (v >>> r) ||| (v <<< (64 - r))

/-- Right rotation of a u32 for `r ≤ 31` (spec R116). -/
def rotr32 (v : Word32) (r : Nat) : Word32 :=
  if r = 0 then v else (v >>> r) ||| (v <<< (32 - r))

/-- Byte i of a u64, byte 0 the least significant. -/
def byteOf64 (v : Word64) (i : Nat) : Byte := v.extractLsb' (8 * i) 8

/-- Byte i of a u32, byte 0 the least significant. -/
def byteOf32 (v : Word32) (i : Nat) : Byte := v.extractLsb' (8 * i) 8

/-- The little-endian value of eight bytes (spec R61, R110). -/
def le64 (b0 b1 b2 b3 b4 b5 b6 b7 : Byte) : Word64 :=
  b0.setWidth 64 ||| b1.setWidth 64 <<< 8 ||| b2.setWidth 64 <<< 16 ||| b3.setWidth 64 <<< 24
    ||| b4.setWidth 64 <<< 32 ||| b5.setWidth 64 <<< 40 ||| b6.setWidth 64 <<< 48 ||| b7.setWidth 64 <<< 56

/-- The little-endian value of four bytes (spec R61, R111). -/
def le32 (b0 b1 b2 b3 : Byte) : Word32 :=
  b0.setWidth 32 ||| b1.setWidth 32 <<< 8 ||| b2.setWidth 32 <<< 16 ||| b3.setWidth 32 <<< 24

/-- Reverses the eight bytes (spec R113). -/
def bswap64 (v : Word64) : Word64 :=
  le64 (byteOf64 v 7) (byteOf64 v 6) (byteOf64 v 5) (byteOf64 v 4) (byteOf64 v 3) (byteOf64 v 2) (byteOf64 v 1)
    (byteOf64 v 0)

/-- Reverses the four bytes (spec R114). -/
def bswap32 (v : Word32) : Word32 :=
  le32 (byteOf32 v 3) (byteOf32 v 2) (byteOf32 v 1) (byteOf32 v 0)

/-- Spec R117. -/
def shiftMix (x : Word64) : Word64 := x ^^^ (x >>> 47)

/-- The three-argument `hashLen16` (spec R118). -/
def hashLen16Mul (u v mul : Word64) : Word64 :=
  let a := (u ^^^ v) * mul
  let a := a ^^^ (a >>> 47)
  let b := (v ^^^ a) * mul
  let b := b ^^^ (b >>> 47)
  b * mul

/-- The two-argument `hashLen16` (spec R119). -/
def hashLen16 (u v : Word64) : Word64 := hashLen16Mul u v KMUL

/-- The 32-bit avalanche finisher (spec R120). -/
def fmix32 (h : Word32) : Word32 :=
  let h := h ^^^ (h >>> 16)
  let h := h * F1
  let h := h ^^^ (h >>> 13)
  let h := h * F2
  h ^^^ (h >>> 16)

/-- The 32-byte weak hash on its four data words and two seeds (spec R121). -/
def weakHash32 (w x y z a b : Word64) : Word64 × Word64 :=
  let a := a + w
  let b := rotr64 (b + a + z) 21
  let c := a
  let a := a + x
  let a := a + y
  let b := b + rotr64 a 44
  (a + z, b + c)

/-- The Murmur3 combiner (spec R122). -/
def mur32 (a h : Word32) : Word32 :=
  let a := a * C1
  let a := rotr32 a 17
  let a := a * C2
  let h := h ^^^ a
  let h := rotr32 h 19
  h * 5 + M5

/-- `PERMUTE3(p, q, r)`: `swap(p, q); swap(p, r)`, so `(p, q, r) <- (r, p, q)` (spec R123). -/
def permute3 {α : Type} (p q r : α) : α × α × α := (r, p, q)

/-- One bit of the CRC32C step (spec R124). -/
def crcBit (c : Word32) : Word32 := (c >>> 1) ^^^ (if c.getLsbD 0 then crcPoly else 0)

/-- One byte of the CRC32C step: the byte into the low end, then eight bits (spec R124). -/
def crcByte (c : Word32) (b : Byte) : Word32 :=
  let c := c ^^^ b.setWidth 32
  crcBit (crcBit (crcBit (crcBit (crcBit (crcBit (crcBit (crcBit c)))))))

/-- The CRC32C step over the eight bytes of `data`, least significant first; `crc[63:32]` is ignored (spec R124). Every
backend computes this one function (R125). -/
def crc32cU64 (crc data : Word64) : Word64 :=
  let c := crc.low32
  let c := crcByte c (byteOf64 data 0)
  let c := crcByte c (byteOf64 data 1)
  let c := crcByte c (byteOf64 data 2)
  let c := crcByte c (byteOf64 data 3)
  let c := crcByte c (byteOf64 data 4)
  let c := crcByte c (byteOf64 data 5)
  let c := crcByte c (byteOf64 data 6)
  let c := crcByte c (byteOf64 data 7)
  c.zext64

end Sys2Proof.Machine
end

