-- ==== Sys2Proof/Machine/Operands.lean ====
section
/-! DEFINITION. The operand forms: byte sequences and their little-endian reads (spec 40_primitives R110–R112, 20_memory
R60–R64), the registers a command reads, with their ids and `written` bits (30_encoding R97, 10_state R36). -/
namespace Sys2Proof.Machine

/-- An abstract byte sequence S: `|S|` and `S[i]` (spec R10). It is an argument of the algorithms, never a field of
State. -/
structure ByteSeq where
  len  : Nat
  byte : Nat → Byte

/-- `rd64(S, o)`, little-endian at any offset (spec R110, R61, R62). -/
def ByteSeq.rd64 (S : ByteSeq) (o : Nat) : Word64 :=
  le64 (S.byte o) (S.byte (o + 1)) (S.byte (o + 2)) (S.byte (o + 3)) (S.byte (o + 4)) (S.byte (o + 5)) (S.byte (o + 6))
    (S.byte (o + 7))

/-- `rd32(S, o)`, little-endian at any offset (spec R111, R61, R62). -/
def ByteSeq.rd32 (S : ByteSeq) (o : Nat) : Word32 :=
  le32 (S.byte o) (S.byte (o + 1)) (S.byte (o + 2)) (S.byte (o + 3))

/-- `sbyte(S, i) = sext_32(S[i])` (spec R112). -/
def ByteSeq.sbyte (S : ByteSeq) (i : Nat) : Word32 := (S.byte i).signExtend 32

/-- `S[p..n)`, the sequence without its first p bytes (spec R10). -/
def ByteSeq.suffix (S : ByteSeq) (p : Nat) : ByteSeq := { len := S.len - p, byte := fun i => S.byte (p + i) }

/-- The length as a u64, exact for `n < 2^64` (spec 42_hash64, D16). -/
def ByteSeq.n64 (S : ByteSeq) : Word64 := BitVec.ofNat 64 S.len

/-- `n32 = trunc_32(n)` (spec 41_hash32, D17). -/
def ByteSeq.n32 (S : ByteSeq) : Word32 := BitVec.ofNat 32 S.len

/-- The buffer form of the weak hash (spec R121). -/
def weakHash32At (S : ByteSeq) (o : Nat) (a b : Word64) : Word64 × Word64 :=
  weakHash32 (S.rd64 o) (S.rd64 (o + 8)) (S.rd64 (o + 16)) (S.rd64 (o + 24)) a b

/-- The byte at one offset of a memory; an unlisted offset has none (spec R34, R60). -/
def Memory.read : Memory → Nat → Option Byte
  | [], _ => none
  | (k, b) :: m, a => if k = a then some b else Memory.read m a

/-- The memory that holds exactly these bytes, from offset `k` on. -/
def Memory.ofBytesFrom (k : Nat) : List Byte → Memory
  | [] => []
  | b :: bs => (k, b) :: Memory.ofBytesFrom (k + 1) bs

/-- The memory that `LOADIN bytes` sets (spec R91). -/
def Memory.ofBytes (bs : List Byte) : Memory := Memory.ofBytesFrom 0 bs

/-- The bytes of a memory in order of offset. -/
def Memory.bytes (m : Memory) : List Byte := m.map Prod.snd

/-- `MemRead(0, LEN)` as the sequence the algorithms read (spec R10). Outside it, `S[i]` is a free value (log 9). -/
def Memory.seq (m : Memory) : ByteSeq where
  len := m.length
  byte i := match Memory.read m i with
    | some b => b
    | none => Config.outOfRangeByte i

/-- The input of the executing context's command (spec R10, R34). -/
def Context.input (c : Context) : ByteSeq := Memory.seq c.inBuf.cells

/-- LEN, as an integer (spec R34, R60). -/
def Context.len (c : Context) : Nat := c.inBuf.cells.length

/-- Whether `MemRead(o, width)` is defined: `o + width ≤ LEN` over the integers, without wrap-around (spec R60, R293). -/
def Context.inBounds (c : Context) (o : Word64) (width : Nat) : Bool := decide (o.toNat + width ≤ c.len)

/-- A register (or IN) that a command reads (spec R97). -/
inductive Source where
  | op (r : OpReg)
  | res (r : ResReg)
  | input
  deriving DecidableEq, Repr

/-- The ids of FAULT_INFO: ARG0..2 = 0..2, SEED0 = 3, SEED1 = 4, RES0..RES3 = 8..11, IN = 16 (spec R97). -/
def Source.id : Source → Nat
  | .op .arg0 => 0
  | .op .arg1 => 1
  | .op .arg2 => 2
  | .op .seed0 => 3
  | .op .seed1 => 4
  | .res .res0 => 8
  | .res .res1 => 9
  | .res .res2 => 10
  | .res .res3 => 11
  | .input => 16

/-- The operand or seed register named (spec R31, R32). -/
def Context.opReg (c : Context) : OpReg → Reg
  | .arg0 => c.arg0
  | .arg1 => c.arg1
  | .arg2 => c.arg2
  | .seed0 => c.seed0
  | .seed1 => c.seed1

/-- The result register named (spec R33). -/
def Context.resReg (c : Context) : ResReg → Reg
  | .res0 => c.res0
  | .res1 => c.res1
  | .res2 => c.res2
  | .res3 => c.res3

/-- The `written` bit of a source (spec R36). -/
def Context.isWritten (c : Context) : Source → Bool
  | .op r => (c.opReg r).written
  | .res r => (c.resReg r).written
  | .input => c.inBuf.written

/-- The first unwritten register among those a command reads, in the order given, which is id order (spec R95, R292). -/
def Context.firstUnwritten (c : Context) (reads : List Source) : Option Source :=
  reads.find? fun r => !c.isWritten r

end Sys2Proof.Machine
end

