-- ==== Sys2Proof/Machine/Flags.lean ====
section
/-! DEFINITION. The core has no condition codes: "A command's only status output is FAULT" (spec 10_state R42). This file
holds that status output's codes and test (60_exceptions R290, R296) and the codes of SEL and CAP (10_state R40, R41). -/
namespace Sys2Proof.Machine

/-- The fault codes that `raise Fault` records (spec R290). -/
inductive FaultCode where
  | illegalCommand
  | unwrittenRegister
  | outOfBounds
  deriving DecidableEq, Repr

/-- FAULT = 0, `NONE` (spec R290). -/
def faultNone : BitVec 8 := 0#8

/-- The 8-bit code of a fault (spec R290). -/
def FaultCode.code : FaultCode → BitVec 8
  | .illegalCommand => 1#8
  | .unwrittenRegister => 2#8
  | .outOfBounds => 3#8

/-- `x[FAULT] ≠ NONE` (spec R95, R296). -/
def Context.faulted (c : Context) : Bool := decide (c.fault ≠ faultNone)

/-- The 2-bit code of SEL (spec R40). -/
def Selector.code : Selector → BitVec 2
  | .uninit => 0#2
  | .generic => 1#2
  | .x86 => 2#2
  | .arm => 3#2

/-- `CAP.X86_CRC`, bit 0 (spec R41). -/
def capX86Crc (cap : BitVec 2) : Bool := cap.getLsbD 0

/-- `CAP.ARM_CRC`, bit 1 (spec R41). -/
def capArmCrc (cap : BitVec 2) : Bool := cap.getLsbD 1

/-- `probe(CAP)` (spec R259). -/
def probe (cap : BitVec 2) : Selector :=
  if capX86Crc cap then .x86 else if capArmCrc cap then .arm else .generic

end Sys2Proof.Machine
end

