-- ==== Sys2Proof/Machine/Ops.lean ====
section
/-! DEFINITION. The named operations of the core: the execution frame of every command (spec 30_encoding R95, R96), taking
a fault (60_exceptions R295), the selector initialisation (45_crc256 R260) and the writes of registers and IN. -/
namespace Sys2Proof.Machine

/-- The four result words of a command (spec R33). -/
structure Digest where
  r0 : Word64
  r1 : Word64
  r2 : Word64
  r3 : Word64
  deriving DecidableEq, Repr

/-- A command that names RES0 only: the others get 0 (spec R33, R96). -/
def Digest.word (v : Word64) : Digest := { r0 := v, r1 := 0, r2 := 0, r3 := 0 }

/-- A command that names RES0 and RES1: RES2 and RES3 get 0 (spec R33, R96). -/
def Digest.pair (p : Word64 × Word64) : Digest := { r0 := p.1, r1 := p.2, r2 := 0, r3 := 0 }

/-- The context whose command runs (spec R30). -/
def State.ctx? (s : State) : Option Context := s.ctxs[s.cur]?

/-- Replaces the executing context; no other context can be written (spec R30). -/
def State.setCtx (s : State) (c : Context) : State := { s with ctxs := s.ctxs.set s.cur c }

/-- A written register (spec R36). -/
def Reg.ofWord (v : Word64) : Reg := { value := v, written := true }

/-- Writes an operand or seed register and sets its `written` bit (spec R36, R91, R143). -/
def Context.setOpReg (c : Context) (r : OpReg) (v : Word64) : Context :=
  match r with
  | .arg0 => { c with arg0 := Reg.ofWord v }
  | .arg1 => { c with arg1 := Reg.ofWord v }
  | .arg2 => { c with arg2 := Reg.ofWord v }
  | .seed0 => { c with seed0 := Reg.ofWord v }
  | .seed1 => { c with seed1 := Reg.ofWord v }

/-- Writes RES0–RES3 and sets their `written` bits (spec R96). -/
def Context.setResults (c : Context) (d : Digest) : Context :=
  { c with res0 := Reg.ofWord d.r0, res1 := Reg.ofWord d.r1, res2 := Reg.ofWord d.r2, res3 := Reg.ofWord d.r3 }

/-- Sets IN and LEN at once, with the `written` bit (spec R34, R91). -/
def Context.setInput (c : Context) (bs : List Byte) : Context :=
  { c with inBuf := { cells := Memory.ofBytes bs, written := true } }

/-- `command index <- command index + 1` (spec R39, R95). -/
def Context.advance (c : Context) : Context := { c with cmdIndex := c.cmdIndex + 1 }

/-- Taking a fault: FAULT and FAULT_INFO are written and nothing else (spec R295). -/
def Context.raise (c : Context) (code : FaultCode) (info : Word64) : Context :=
  { c with fault := code.code, faultInfo := info }

/-- `compare-and-set(SEL, UNINIT, probe(CAP))`, one atomic step (spec R260). -/
def State.initSel (s : State) : State :=
  match s.sel with
  | .uninit => { s with sel := probe s.cap }
  | .generic | .x86 | .arm => s

/-- `raise Fault(code, info)` in the executing context `c`: the one way to take an exception (spec R295). There is no
return from a fault (R296): only reset clears FAULT. -/
def State.raise (s : State) (c : Context) (code : FaultCode) (info : Word64) : State := s.setCtx (c.raise code info)

/-- A successful command other than `MOV`: the four result words, and the index moves on (spec R95, R96). -/
def State.complete (s : State) (c : Context) (d : Digest) : State := s.setCtx (c.setResults d).advance

/-- What a word presented to the executing context comes to before anything else is looked at: no step when FAULT is set,
which leaves the state as it is (spec R95, R296, log 13). -/
def State.present (s : State) (act : Context → State) : Host.Outcome State Fault Refusal :=
  match s.ctx? with
  | none => .fault .noSuchContext
  | some c => if c.faulted then .next s else .next (act c)

/-- An illegal word: `Fault(ILLEGAL_COMMAND, zext_64(cw))`, before any register is read (spec R87, R291). -/
def State.illegal (s : State) (cw : Word32) : Host.Outcome State Fault Refusal :=
  s.present fun c => s.raise c .illegalCommand cw.zext64

/-- The reads of a legal command are checked in id order; the first unwritten one is recorded, else the rule runs (spec R95,
R292, R294). -/
def State.checkReads (s : State) (c : Context) (reads : List Source) (rule : Context → State) : State :=
  match c.firstUnwritten reads with
  | some r => s.raise c .unwrittenRegister (BitVec.ofNat 64 r.id)
  | none => rule c

/-- The frame of a legal command (spec R95). -/
def State.command (s : State) (reads : List Source) (rule : Context → State) : Host.Outcome State Fault Refusal :=
  s.present fun c => s.checkReads c reads rule

end Sys2Proof.Machine
end

