-- ==== Sys2Proof/Machine/Crc256.lean ====
section
/-! DEFINITION. The 256-bit CRC family (spec 45_crc256 R250–R258, R262, R263). -/
namespace Sys2Proof.Machine

/-- The eleven state words and the two early result words (spec R252, C1). -/
structure Crc where
  a  : Word64
  b  : Word64
  c  : Word64
  d  : Word64
  e  : Word64
  f  : Word64
  g  : Word64
  h  : Word64
  x  : Word64
  y  : Word64
  z  : Word64
  r0 : Word64
  r1 : Word64
  deriving DecidableEq, Repr

/-- `pad240(S)`: the 240-byte PAD, zero beyond the input (spec R251). -/
def pad240 (S : ByteSeq) : ByteSeq where
  len := 240
  byte i := if i < S.len then S.byte i else 0

/-- The initialisation (spec R252). -/
def crcInit (S : ByteSeq) (seed32 : Word32) : Crc :=
  let a := S.rd64 56 + K0
  let b := S.rd64 96 + K0
  let c := hashLen16 b S.n64
  let d := S.rd64 120 * K0 + S.n64
  let e := S.rd64 184 + seed32.zext64
  { a := a, b := b, c := c, d := d, e := e, f := 0, g := 0, h := c + d, x := seed32.zext64, y := 0, z := 0,
    r0 := c, r1 := d }

/-- `CHUNK(q, r)`: one 40-byte chunk step (spec R253). -/
def crcChunk (S : ByteSeq) (q r : Nat) (st : Crc) : Crc :=
  let xzy := permute3 st.x st.z st.y
  let x := xzy.1
  let z := xzy.2.1
  let y := xzy.2.2
  let b := st.b + S.rd64 q
  let c := st.c + S.rd64 (q + 8)
  let d := st.d + S.rd64 (q + 16)
  let e := st.e + S.rd64 (q + 24)
  let f := st.f + S.rd64 (q + 32)
  let a := st.a + b
  let h := st.h + f
  let b := b + c
  let f := f + d
  let g := st.g + e
  let e := e + z
  let g := g + x
  let z := crc32cU64 z (b + g)
  let y := crc32cU64 y (e + h)
  let x := crc32cU64 x (f + a)
  let e := rotr64 e r
  let c := c + e
  { a := a, b := b, c := c, d := d, e := e, f := f, g := g, h := h, x := x, y := y, z := z, r0 := st.r0, r1 := st.r1 }

/-- `PERMUTE3(a, h, c)` (spec R254). -/
def permAHC (st : Crc) : Crc :=
  let p := permute3 st.a st.h st.c
  { st with a := p.1, h := p.2.1, c := p.2.2 }

/-- `PERMUTE3(a, h, f)` (spec R254). -/
def permAHF (st : Crc) : Crc :=
  let p := permute3 st.a st.h st.f
  { st with a := p.1, h := p.2.1, f := p.2.2 }

/-- `PERMUTE3(b, h, f)` (spec R254). -/
def permBHF (st : Crc) : Crc :=
  let p := permute3 st.b st.h st.f
  { st with b := p.1, h := p.2.1, f := p.2.2 }

/-- `PERMUTE3(b, h, d)` (spec R254). -/
def permBHD (st : Crc) : Crc :=
  let p := permute3 st.b st.h st.d
  { st with b := p.1, h := p.2.1, d := p.2.2 }

/-- `PERMUTE3(b, h, e)` (spec R254). -/
def permBHE (st : Crc) : Crc :=
  let p := permute3 st.b st.h st.e
  { st with b := p.1, h := p.2.1, e := p.2.2 }

/-- `PERMUTE3(a, h, e)` (spec R254). -/
def permAHE (st : Crc) : Crc :=
  let p := permute3 st.a st.h st.e
  { st with a := p.1, h := p.2.1, e := p.2.2 }

/-- `PERMUTE3(c, h, g)` (spec R255). -/
def permCHG (st : Crc) : Crc :=
  let p := permute3 st.c st.h st.g
  { st with c := p.1, h := p.2.1, g := p.2.2 }

/-- One 240-byte group at offset q (spec R254). -/
def crcGroup (S : ByteSeq) (q : Nat) (st : Crc) : Crc :=
  let st := permAHC (crcChunk S q 0 st)
  let st := permAHF (crcChunk S (q + 40) 33 st)
  let st := permBHF (crcChunk S (q + 80) 0 st)
  let st := permBHD (crcChunk S (q + 120) 42 st)
  let st := permBHE (crcChunk S (q + 160) 0 st)
  permAHE (crcChunk S (q + 200) 33 st)

/-- `k` groups from offset q on (spec R254). -/
def crcGroups (S : ByteSeq) : Nat → Nat → Crc → Crc
  | 0, _, st => st
  | k + 1, q, st => crcGroups S k (q + 240) (crcGroup S q st)

/-- One whole 40-byte chunk after the groups (spec R255). -/
def crcRemChunk (S : ByteSeq) (p : Nat) (st : Crc) : Crc :=
  let st := crcChunk S p 29 st
  let st := { st with e := st.e ^^^ rotr64 st.a 20, h := st.h + rotr64 st.b 30, g := st.g ^^^ rotr64 st.c 40,
                      f := st.f + rotr64 st.d 34 }
  permCHG st

/-- `k` whole 40-byte chunks from offset p on (spec R255). -/
def crcRemLoop (S : ByteSeq) : Nat → Nat → Crc → Crc
  | 0, _, st => st
  | k + 1, p, st => crcRemLoop S k (p + 40) (crcRemChunk S p st)

/-- The final partial chunk over the last 40 bytes (spec R256). -/
def crcLast (S : ByteSeq) (st : Crc) : Crc :=
  let st := crcChunk S (S.len - 40) 33 st
  { st with e := st.e ^^^ rotr64 st.a 43, h := st.h + rotr64 st.b 42, g := st.g ^^^ rotr64 st.c 41,
            f := st.f + rotr64 st.d 40 }

/-- The finalisation cascade (spec R257). -/
def crcFinal (st : Crc) : Digest :=
  let r0 := st.r0 ^^^ st.h
  let r1 := st.r1 ^^^ st.g
  let g := st.g + st.h
  let a := hashLen16 st.a (g + st.z)
  let x := st.x + st.y <<< 32
  let b := st.b + x
  let c := hashLen16 st.c st.z + st.h
  let d := hashLen16 st.d (st.e + r0)
  let g := g + st.e
  let h := st.h + hashLen16 x st.f
  let e := hashLen16 a d + g
  let z := hashLen16 b c + a
  let y := hashLen16 g h + c
  let r0 := e + z + y + x
  let a := shiftMix ((a + y) * K0) * K0 + b
  let r1 := r1 + a + r0
  let a := shiftMix (a * K0) * K0 + c
  let r2 := a + r1
  let a := shiftMix ((a + e) * K0) * K0
  let r3 := a + r2
  { r0 := r0, r1 := r1, r2 := r2, r3 := r3 }

/-- `crc256Long(S, n, seed32)`, `n = |S| ≥ 240` (spec R252–R257): `⌊n / 240⌋` groups, `⌊rem / 40⌋` chunks, and the final
chunk when bytes remain. -/
def crc256Long (S : ByteSeq) (seed32 : Word32) : Digest :=
  let groups := S.len / 240
  let rem := S.len - 240 * groups
  let st := crcGroups S groups 0 (crcInit S seed32)
  let st := crcRemLoop S (rem / 40) (240 * groups) st
  let st := if 0 < rem % 40 then crcLast S st else st
  crcFinal st

/-- `hash256CrcSeeded(S, seed32)`: an input below 240 bytes is padded and its seed is `~trunc_32(n)` (spec R250). -/
def hash256CrcSeeded (S : ByteSeq) (seed32 : Word32) : Digest :=
  if 240 ≤ S.len then crc256Long S seed32 else crc256Long (pad240 S) (~~~S.n32)

/-- `hash256Crc(S)`: seed 0 (spec R258, D20). -/
def hash256Crc (S : ByteSeq) : Digest := hash256CrcSeeded S 0

/-- `HASH256_CRC` (spec R262, R260). -/
def execHash256Crc (s : State) : Host.Outcome State Fault Refusal :=
  s.command [.input] fun c => s.initSel.complete c (hash256Crc c.input)

/-- `HASH256_CRC_SEED`: `seed32 = SEED0[31:0]` (spec R263, R260, D21). -/
def execHash256CrcSeed (s : State) : Host.Outcome State Fault Refusal :=
  s.command [.op .seed0, .input] fun c => s.initSel.complete c (hash256CrcSeeded c.input c.seed0.value.low32)

end Sys2Proof.Machine
end

