-- ==== Sys2Proof/Machine/Hash64.lean ====
section
/-! DEFINITION. The 64-bit family (spec 42_hash64 R170–R179). -/
namespace Sys2Proof.Machine

/-- `mul(n) = K2 + 2·n`, the length-scaled multiplier (spec 42_hash64). -/
def lenMul (S : ByteSeq) : Word64 := K2 + 2 * S.n64

/-- Spec R171, the sub-case `8 ≤ n ≤ 16`. -/
def h64_8to16 (S : ByteSeq) : Word64 :=
  let m := lenMul S
  let a := S.rd64 0 + K2
  let b := S.rd64 (S.len - 8)
  let c := rotr64 b 37 * m + a
  let d := (rotr64 a 25 + b) * m
  hashLen16Mul c d m

/-- Spec R171, the sub-case `4 ≤ n ≤ 7`. -/
def h64_4to7 (S : ByteSeq) : Word64 :=
  let m := lenMul S
  let a := (S.rd32 0).zext64
  hashLen16Mul (S.n64 + a <<< 3) (S.rd32 (S.len - 4)).zext64 m

/-- Spec R171, the sub-case `1 ≤ n ≤ 3`: three bytes, as u32 values. -/
def h64_1to3 (S : ByteSeq) : Word64 :=
  let n := S.len
  let y : Word32 := (S.byte 0).setWidth 32 + (S.byte (n >>> 1)).setWidth 32 <<< 8
  let z : Word32 := S.n32 + (S.byte (n - 1)).setWidth 32 <<< 2
  shiftMix ((y.zext64 * K2) ^^^ (z.zext64 * K0)) * K2

/-- Spec R171, `0 ≤ n ≤ 16`. -/
def h64_0to16 (S : ByteSeq) : Word64 :=
  if 8 ≤ S.len then h64_8to16 S
  else if 4 ≤ S.len then h64_4to7 S
  else if 0 < S.len then h64_1to3 S
  else K2

/-- Spec R172, `17 ≤ n ≤ 32`. -/
def h64_17to32 (S : ByteSeq) : Word64 :=
  let n := S.len
  let m := lenMul S
  let a := S.rd64 0 * K1
  let b := S.rd64 8
  let c := S.rd64 (n - 8) * m
  let d := S.rd64 (n - 16) * K2
  hashLen16Mul (rotr64 (a + b) 43 + rotr64 c 30 + d) (a + rotr64 (b + K2) 18 + c) m

/-- Spec R173, `33 ≤ n ≤ 64`. -/
def h64_33to64 (S : ByteSeq) : Word64 :=
  let n := S.len
  let m := lenMul S
  let a := S.rd64 0 * K2
  let b := S.rd64 8
  let c := S.rd64 (n - 24)
  let d := S.rd64 (n - 32)
  let e := S.rd64 16 * K2
  let f := S.rd64 24 * 9
  let g := S.rd64 (n - 8)
  let h := S.rd64 (n - 16) * m
  let u := rotr64 (a + g) 43 + (rotr64 b 30 + c) * 9
  let v := ((a + g) ^^^ d) + f + 1
  let w := bswap64 ((u + v) * m) + h
  let x := rotr64 (e + f) 42 + c
  let y := (bswap64 ((v + w) * m) + g) * m
  let z := e + f + c
  let a := bswap64 ((x + z) * m + y) + b
  let b := shiftMix ((z + a) * m + d + h) * m
  b + x

/-- The state words of the long paths: `x, y, z` and the pairs `v`, `w` (spec R174, R221). -/
structure H64 where
  x  : Word64
  y  : Word64
  z  : Word64
  v0 : Word64
  v1 : Word64
  w0 : Word64
  w1 : Word64
  deriving DecidableEq, Repr

/-- The initialisation from the last 64 bytes, then the first word (spec R174). -/
def h64Init (S : ByteSeq) : H64 :=
  let n := S.len
  let x := S.rd64 (n - 40)
  let y := S.rd64 (n - 16) + S.rd64 (n - 56)
  let z := hashLen16 (S.rd64 (n - 48) + S.n64) (S.rd64 (n - 24))
  let v := weakHash32At S (n - 64) S.n64 z
  let w := weakHash32At S (n - 32) (y + K1) x
  let x := x * K1 + S.rd64 0
  { x := x, y := y, z := z, v0 := v.1, v1 := v.2, w0 := w.1, w1 := w.2 }

/-- `chunk64(p)`, shared with the 128-bit family (spec R175). -/
def chunk64 (S : ByteSeq) (p : Nat) (st : H64) : H64 :=
  let x := rotr64 (st.x + st.y + st.v0 + S.rd64 (p + 8)) 37 * K1
  let y := rotr64 (st.y + st.v1 + S.rd64 (p + 48)) 42 * K1
  let x := x ^^^ st.w1
  let y := y + st.v0 + S.rd64 (p + 40)
  let z := rotr64 (st.z + st.w0) 33 * K1
  let v := weakHash32At S p (st.v1 * K1) (x + st.w0)
  let w := weakHash32At S (p + 32) (z + st.w1) (y + S.rd64 (p + 16))
  -- swap(z, x)
  { x := z, y := y, z := x, v0 := v.1, v1 := v.2, w0 := w.1, w1 := w.2 }

/-- `k` chunks from offset p on (spec R176). -/
def h64Loop (S : ByteSeq) : Nat → Nat → H64 → H64
  | 0, _, st => st
  | k + 1, p, st => h64Loop S k (p + 64) (chunk64 S p st)

/-- The finalisation (spec R176). -/
def h64Final (st : H64) : Word64 :=
  hashLen16 (hashLen16 st.v0 st.w0 + shiftMix st.y * K1 + st.z) (hashLen16 st.v1 st.w1 + st.x)

/-- Spec R174–R176, `n > 64`; `⌊(n − 1) / 64⌋` chunks. -/
def h64_long (S : ByteSeq) : Word64 := h64Final (h64Loop S ((S.len - 1) / 64) 0 (h64Init S))

/-- The dispatcher (spec R170). -/
def hash64 (S : ByteSeq) : Word64 :=
  if S.len ≤ 16 then h64_0to16 S
  else if S.len ≤ 32 then h64_17to32 S
  else if S.len ≤ 64 then h64_33to64 S
  else h64_long S

/-- `hash64Seeded`, with the parameter SEED64_SUB (spec R177, R6). -/
def hash64Seeded (S : ByteSeq) (seed : Word64) : Word64 := hashLen16 (hash64 S - Config.seed64Sub) seed

/-- `HASH64` (spec R178). -/
def execHash64 (s : State) : Host.Outcome State Fault Refusal :=
  s.command [.input] fun c => s.complete c (.word (hash64 c.input))

/-- `HASH64_SEED` (spec R179, R32). -/
def execHash64Seed (s : State) : Host.Outcome State Fault Refusal :=
  s.command [.op .seed0, .input] fun c => s.complete c (.word (hash64Seeded c.input c.seed0.value))

end Sys2Proof.Machine
end

