-- ==== Sys2Proof/Machine/Murmur128.lean ====
section
/-! DEFINITION. The Murmur hybrid (spec 43_murmur128 R200–R206). -/
namespace Sys2Proof.Machine

/-- The words `a, b, c, d` (spec R200). -/
structure Mur where
  a : Word64
  b : Word64
  c : Word64
  d : Word64
  deriving DecidableEq, Repr

/-- The branch `n ≤ 16` (spec R201). -/
def murShort (S : ByteSeq) (seedLo seedHi : Word64) : Mur :=
  let a := shiftMix (seedLo * K1) * K1
  let b := seedHi
  let c := b * K1 + h64_0to16 S
  let d := shiftMix (a + (if 8 ≤ S.len then S.rd64 0 else c))
  { a := a, b := b, c := c, d := d }

/-- The branch `n > 16`, initialisation (spec R202). -/
def murInit (S : ByteSeq) (seedLo seedHi : Word64) : Mur :=
  let n := S.len
  let a := seedLo
  let b := seedHi
  let c := hashLen16 (S.rd64 (n - 8) + K1) a
  let d := hashLen16 (b + S.n64) (c + S.rd64 (n - 16))
  { a := a + d, b := b, c := c, d := d }

/-- One 16-byte step at offset p (spec R203). -/
def murStep (S : ByteSeq) (p : Nat) (st : Mur) : Mur :=
  let a := st.a ^^^ (shiftMix (S.rd64 p * K1) * K1)
  let a := a * K1
  let b := st.b ^^^ a
  let c := st.c ^^^ (shiftMix (S.rd64 (p + 8) * K1) * K1)
  let c := c * K1
  let d := st.d ^^^ c
  { a := a, b := b, c := c, d := d }

/-- `k` steps from offset p on (spec R203). -/
def murLoop (S : ByteSeq) : Nat → Nat → Mur → Mur
  | 0, _, st => st
  | k + 1, p, st => murLoop S k (p + 16) (murStep S p st)

/-- `⌈(n − 16) / 16⌉` (spec R203). -/
def murSteps (n : Nat) : Nat := (n - 16 + 15) / 16

/-- The final combine of both branches (spec R204): `(lo, hi)`. -/
def murFinal (st : Mur) : Word64 × Word64 :=
  let a := hashLen16 st.a st.c
  let b := hashLen16 st.d st.b
  (a ^^^ b, hashLen16 b a)

/-- `cityMurmur(S, (seedLo, seedHi))` (spec R200–R204). -/
def cityMurmur (S : ByteSeq) (seedLo seedHi : Word64) : Word64 × Word64 :=
  if S.len ≤ 16 then murFinal (murShort S seedLo seedHi)
  else murFinal (murLoop S (murSteps S.len) 0 (murInit S seedLo seedHi))

/-- `MURMUR128`: the seed is (0, 0) (spec R205, D19). -/
def execMurmur128 (s : State) : Host.Outcome State Fault Refusal :=
  s.command [.input] fun c => s.complete c (.pair (cityMurmur c.input 0 0))

/-- `MURMUR128_SEED` (spec R206, R32). -/
def execMurmur128Seed (s : State) : Host.Outcome State Fault Refusal :=
  s.command [.op .seed0, .op .seed1, .input] fun c =>
    s.complete c (.pair (cityMurmur c.input c.seed0.value c.seed1.value))

end Sys2Proof.Machine
end

