-- ==== Sys2Proof/Machine/Hash128.lean ====
section
/-! DEFINITION. The 128-bit family and the CRC-aware 128-bit wrappers (spec 44_hash128 R220–R232). -/
namespace Sys2Proof.Machine

/-- `h128_long`, initialisation (spec R221). -/
def h128Init (S : ByteSeq) (seedLo seedHi : Word64) : H64 :=
  let x := seedLo
  let y := seedHi
  let z := S.n64 * K1
  let v0 := rotr64 (y ^^^ K1) 49 * K1 + S.rd64 0
  let v1 := rotr64 v0 42 * K1 + S.rd64 8
  let w0 := rotr64 (y + z) 35 * K1 + x
  let w1 := rotr64 (x + S.rd64 88) 53 * K1
  { x := x, y := y, z := z, v0 := v0, v1 := v1, w0 := w0, w1 := w1 }

/-- `k` double chunks of 128 bytes from offset p on (spec R222). -/
def h128Loop (S : ByteSeq) : Nat → Nat → H64 → H64
  | 0, _, st => st
  | k + 1, p, st => h128Loop S k (p + 128) (chunk64 S (p + 64) (chunk64 S p st))

/-- The post-loop mixing (spec R223). -/
def h128Mix (st : H64) : H64 :=
  { x := st.x + rotr64 (st.v0 + st.z) 49 * K0
    y := st.y * K0 + rotr64 st.w1 37
    z := st.z * K0 + rotr64 st.w0 27
    v0 := st.v0 * K0
    v1 := st.v1
    w0 := st.w0 * 9
    w1 := st.w1 }

/-- One tail group whose 32-byte window starts at offset q (spec R224). -/
def h128TailStep (S : ByteSeq) (q : Nat) (st : H64) : H64 :=
  let y := rotr64 (st.x + st.y) 42 * K0 + st.v1
  let w0 := st.w0 + S.rd64 (q + 16)
  let x := st.x * K0 + w0
  let z := st.z + st.w1 + S.rd64 q
  let w1 := st.w1 + st.v0
  let v := weakHash32At S q (st.v0 + z) st.v1
  { x := x, y := y, z := z, v0 := v.1 * K0, v1 := v.2, w0 := w0, w1 := w1 }

/-- `k` tail groups, the first with its window ending `t` bytes before the end: `q = n − (t + 32)` (spec R224). -/
def h128Tail (S : ByteSeq) : Nat → Nat → H64 → H64
  | 0, _, st => st
  | k + 1, t, st => h128Tail S k (t + 32) (h128TailStep S (S.len - (t + 32)) st)

/-- The finalisation (spec R225): `(lo, hi)`. -/
def h128Final (st : H64) : Word64 × Word64 :=
  let x := hashLen16 st.x st.v0
  let y := hashLen16 (st.y + st.z) st.w0
  (hashLen16 (x + st.v1) st.w1 + y, hashLen16 (x + st.w1) (y + st.v1))

/-- `h128_long`, `n ≥ 128` (spec R221–R225): `⌊n / 128⌋` double chunks, `⌈(n mod 128) / 32⌉` tail groups (R327). -/
def h128_long (S : ByteSeq) (seedLo seedHi : Word64) : Word64 × Word64 :=
  let st := h128Loop S (S.len / 128) 0 (h128Init S seedLo seedHi)
  h128Final (h128Tail S ((S.len % 128 + 31) / 32) 0 (h128Mix st))

/-- `hash128Seeded` (spec R220). -/
def hash128Seeded (S : ByteSeq) (seedLo seedHi : Word64) : Word64 × Word64 :=
  if S.len < 128 then cityMurmur S seedLo seedHi else h128_long S seedLo seedHi

/-- `hash128`, the unseeded entry (spec R226, C8). -/
def hash128 (S : ByteSeq) : Word64 × Word64 :=
  if 16 ≤ S.len then hash128Seeded (S.suffix 16) (S.rd64 0) (S.rd64 8 + K0) else hash128Seeded S K0 K1

/-- `hash128Crc` (spec R227). -/
def hash128Crc (S : ByteSeq) : Word64 × Word64 :=
  if S.len ≤ 900 then hash128 S
  else
    let d := hash256Crc S
    (d.r2, d.r3)

/-- `hash128CrcSeeded` (spec R228, D22). -/
def hash128CrcSeeded (S : ByteSeq) (seedLo seedHi : Word64) : Word64 × Word64 :=
  if S.len ≤ 900 then hash128Seeded S seedLo seedHi
  else
    let d := hash256Crc S
    let u := seedHi + d.r0
    let v := seedLo + d.r1
    (hashLen16 u (v + d.r2), hashLen16 (rotr64 v 32) (u * K0 + d.r3))

/-- The selector initialisation of the CRC-aware wrappers: only when `LEN > 900` (spec R231, R232, R260). -/
def State.initSelLong (s : State) (c : Context) : State := if 900 < c.len then s.initSel else s

/-- `HASH128` (spec R229). -/
def execHash128 (s : State) : Host.Outcome State Fault Refusal :=
  s.command [.input] fun c => s.complete c (.pair (hash128 c.input))

/-- `HASH128_SEED` (spec R230, R32). -/
def execHash128Seed (s : State) : Host.Outcome State Fault Refusal :=
  s.command [.op .seed0, .op .seed1, .input] fun c =>
    s.complete c (.pair (hash128Seeded c.input c.seed0.value c.seed1.value))

/-- `HASH128_CRC` (spec R231). -/
def execHash128Crc (s : State) : Host.Outcome State Fault Refusal :=
  s.command [.input] fun c => (s.initSelLong c).complete c (.pair (hash128Crc c.input))

/-- `HASH128_CRC_SEED` (spec R232, R32). -/
def execHash128CrcSeed (s : State) : Host.Outcome State Fault Refusal :=
  s.command [.op .seed0, .op .seed1, .input] fun c =>
    (s.initSelLong c).complete c (.pair (hash128CrcSeeded c.input c.seed0.value c.seed1.value))

end Sys2Proof.Machine
end

