-- ==== Sys2Proof/Machine/Hash32.lean ====
section
/-! DEFINITION. The 32-bit family (spec 41_hash32 R150–R157). -/
namespace Sys2Proof.Machine

/-- `W(v) = v * 5 + 0xe6546b64` (spec 41_hash32). -/
def stepW (v : Word32) : Word32 := v * 5 + M5

/-- `A(o) = rotr32(rd32(S, o) * C1, 17) * C2` (spec 41_hash32). -/
def scrambled (S : ByteSeq) (o : Nat) : Word32 := rotr32 (S.rd32 o * C1) 17 * C2

/-- The byte fold of R151: `b <- b * C1 + sbyte(S, i); c <- c ^ b` for `k` bytes from `i` on. -/
def foldBytes32 (S : ByteSeq) : Nat → Nat → Word32 × Word32 → Word32 × Word32
  | 0, _, bc => bc
  | k + 1, i, (b, c) =>
    let b := b * C1 + S.sbyte i
    foldBytes32 S k (i + 1) (b, c ^^^ b)

/-- Spec R151, `0 ≤ n ≤ 4`. -/
def h32_0to4 (S : ByteSeq) : Word32 :=
  let bc := foldBytes32 S S.len 0 (0, 9)
  fmix32 (mur32 bc.1 (mur32 S.n32 bc.2))

/-- Spec R152, `5 ≤ n ≤ 12`. -/
def h32_5to12 (S : ByteSeq) : Word32 :=
  let n := S.len
  let a := S.n32
  let b := S.n32 * 5
  let c : Word32 := 9
  let d := b
  let a := a + S.rd32 0
  let b := b + S.rd32 (n - 4)
  let c := c + S.rd32 ((n >>> 1) &&& 4)
  fmix32 (mur32 c (mur32 b (mur32 a d)))

/-- Spec R153, `13 ≤ n ≤ 24`. -/
def h32_13to24 (S : ByteSeq) : Word32 :=
  let n := S.len
  let a := S.rd32 ((n >>> 1) - 4)
  let b := S.rd32 4
  let c := S.rd32 (n - 8)
  let d := S.rd32 (n >>> 1)
  let e := S.rd32 0
  let f := S.rd32 (n - 4)
  let h := S.n32
  fmix32 (mur32 f (mur32 e (mur32 d (mur32 c (mur32 b (mur32 a h))))))

/-- The state words `h`, `g`, `f` of the long path (spec R154). -/
structure H32 where
  h : Word32
  g : Word32
  f : Word32
  deriving DecidableEq, Repr

/-- `v <- v ^ a; v <- rotr32(v, r); v <- W(v)` (spec R154, R155). -/
def xorRotW (v a : Word32) (r : Nat) : Word32 := stepW (rotr32 (v ^^^ a) r)

/-- `v <- v + a; v <- rotr32(v, r); v <- W(v)` (spec R154, R155). -/
def addRotW (v a : Word32) (r : Nat) : Word32 := stepW (rotr32 (v + a) r)

/-- The initialisation from the last 20 bytes (spec R154). -/
def h32Init (S : ByteSeq) : H32 :=
  let n := S.len
  let h := S.n32
  let g := C1 * S.n32
  let f := g
  let a0 := scrambled S (n - 4)
  let a1 := scrambled S (n - 8)
  let a2 := scrambled S (n - 16)
  let a3 := scrambled S (n - 12)
  let a4 := scrambled S (n - 20)
  let h := xorRotW h a0 19
  let h := xorRotW h a2 19
  let g := xorRotW g a1 19
  let g := xorRotW g a3 19
  let f := addRotW f a4 19
  { h := h, g := g, f := f }

/-- One 20-byte chunk at offset p (spec R155). -/
def h32Chunk (S : ByteSeq) (p : Nat) (st : H32) : H32 :=
  let a0 := scrambled S p
  let a1 := S.rd32 (p + 4)
  let a2 := scrambled S (p + 8)
  let a3 := scrambled S (p + 12)
  let a4 := S.rd32 (p + 16)
  let h := xorRotW st.h a0 18
  let f := rotr32 (st.f + a1) 19 * C1
  let g := addRotW st.g a2 18
  let h := xorRotW h (a3 + a1) 19
  let g := bswap32 (g ^^^ a4) * 5
  let h := bswap32 (h + a4 * 5)
  let f := f + a0
  let fhg := permute3 f h g
  { f := fhg.1, h := fhg.2.1, g := fhg.2.2 }

/-- `k` chunks from offset p on (spec R155). -/
def h32Loop (S : ByteSeq) : Nat → Nat → H32 → H32
  | 0, _, st => st
  | k + 1, p, st => h32Loop S k (p + 20) (h32Chunk S p st)

/-- The finalisation (spec R156). -/
def h32Final (st : H32) : Word32 :=
  let g := rotr32 st.g 11 * C1
  let g := rotr32 g 17 * C1
  let f := rotr32 st.f 11 * C1
  let f := rotr32 f 17 * C1
  let h := addRotW st.h g 19
  let h := rotr32 h 17 * C1
  let h := addRotW h f 19
  rotr32 h 17 * C1

/-- Spec R154–R156, `n > 24`; `⌊(n − 1) / 20⌋` chunks. -/
def h32_long (S : ByteSeq) : Word32 := h32Final (h32Loop S ((S.len - 1) / 20) 0 (h32Init S))

/-- The dispatcher (spec R150). -/
def hash32 (S : ByteSeq) : Word32 :=
  if S.len ≤ 4 then h32_0to4 S
  else if S.len ≤ 12 then h32_5to12 S
  else if S.len ≤ 24 then h32_13to24 S
  else h32_long S

/-- `HASH32` (spec R157). -/
def execHash32 (s : State) : Host.Outcome State Fault Refusal :=
  s.command [.input] fun c => s.complete c (.word (hash32 c.input).zext64)

end Sys2Proof.Machine
end

