-- ==== Sys2Proof/Machine/PrimitiveCommands.lean ====
section
/-! DEFINITION. The primitive commands (spec 40_primitives R130–R142). -/
namespace Sys2Proof.Machine

/-- The frame of a primitive command that reads `width` bytes at the offset in ARG0: out of bounds, or its rule (spec
R60, R293). -/
def State.readAt (s : State) (c : Context) (width : Nat) (rule : Nat → Digest) : State :=
  if c.inBounds c.arg0.value width then s.complete c (rule c.arg0.value.toNat)
  else s.raise c .outOfBounds c.arg0.value

/-- `READLE64` (spec R130). -/
def execReadle64 (s : State) : Host.Outcome State Fault Refusal :=
  s.command [.op .arg0, .input] fun c => s.readAt c 8 fun o => .word (c.input.rd64 o)

/-- `READLE32` (spec R131). -/
def execReadle32 (s : State) : Host.Outcome State Fault Refusal :=
  s.command [.op .arg0, .input] fun c => s.readAt c 4 fun o => .word (c.input.rd32 o).zext64

/-- `SHIFTMIX` (spec R132). -/
def execShiftmix (s : State) : Host.Outcome State Fault Refusal :=
  s.command [.op .arg0] fun c => s.complete c (.word (shiftMix c.arg0.value))

/-- `HASHLEN16` (spec R133). -/
def execHashlen16 (s : State) : Host.Outcome State Fault Refusal :=
  s.command [.op .arg0, .op .arg1] fun c => s.complete c (.word (hashLen16 c.arg0.value c.arg1.value))

/-- `HASHLEN16M` (spec R134). -/
def execHashlen16m (s : State) : Host.Outcome State Fault Refusal :=
  s.command [.op .arg0, .op .arg1, .op .arg2] fun c =>
    s.complete c (.word (hashLen16Mul c.arg0.value c.arg1.value c.arg2.value))

/-- `FMIX32` (spec R135). -/
def execFmix32 (s : State) : Host.Outcome State Fault Refusal :=
  s.command [.op .arg0] fun c => s.complete c (.word (fmix32 c.arg0.value.low32).zext64)

/-- `MUR32` (spec R136). -/
def execMur32 (s : State) : Host.Outcome State Fault Refusal :=
  s.command [.op .arg0, .op .arg1] fun c =>
    s.complete c (.word (mur32 c.arg0.value.low32 c.arg1.value.low32).zext64)

/-- `ROTR64 #r` (spec R137). -/
def execRotr64 (r : BitVec 6) (s : State) : Host.Outcome State Fault Refusal :=
  s.command [.op .arg0] fun c => s.complete c (.word (rotr64 c.arg0.value r.toNat))

/-- `ROTR32 #r` (spec R138): an amount of 32 or more is an illegal command. -/
def execRotr32 (r : BitVec 6) (s : State) : Host.Outcome State Fault Refusal :=
  if r.toNat < 32 then
    s.command [.op .arg0] fun c => s.complete c (.word (rotr32 c.arg0.value.low32 r.toNat).zext64)
  else s.illegal (encode (.rotr32 r))

/-- `BSWAP64` (spec R139). -/
def execBswap64 (s : State) : Host.Outcome State Fault Refusal :=
  s.command [.op .arg0] fun c => s.complete c (.word (bswap64 c.arg0.value))

/-- `BSWAP32` (spec R140). -/
def execBswap32 (s : State) : Host.Outcome State Fault Refusal :=
  s.command [.op .arg0] fun c => s.complete c (.word (bswap32 c.arg0.value.low32).zext64)

/-- `WEAKHASH32` (spec R141). -/
def execWeakhash32 (s : State) : Host.Outcome State Fault Refusal :=
  s.command [.op .arg0, .op .arg1, .op .arg2, .input] fun c =>
    s.readAt c 32 fun o => .pair (weakHash32At c.input o c.arg1.value c.arg2.value)

/-- `CRC32C` (spec R142, R260). -/
def execCrc32c (s : State) : Host.Outcome State Fault Refusal :=
  s.command [.op .arg0, .op .arg1] fun c =>
    s.initSel.complete c (.word (crc32cU64 c.arg0.value c.arg1.value))

end Sys2Proof.Machine
end

