-- ==== Sys2Proof/Machine/Utility.lean ====
section
/-! DEFINITION. The utility commands (spec 40_primitives R143–R145). -/
namespace Sys2Proof.Machine

/-- `MOV dst, RESn` (spec R143): only the destination is written; RES0–RES3 stay (R96). -/
def execMov (dst : OpReg) (src : ResReg) (s : State) : Host.Outcome State Fault Refusal :=
  s.command [.res src] fun c => s.setCtx (c.setOpReg dst (c.resReg src).value).advance

/-- `RDSEL` (spec R144): it does not initialise SEL. -/
def execRdsel (s : State) : Host.Outcome State Fault Refusal :=
  s.command [] fun c => s.complete c (.word (s.sel.code.setWidth 64))

/-- `RDCAP` (spec R145). -/
def execRdcap (s : State) : Host.Outcome State Fault Refusal :=
  s.command [] fun c => s.complete c (.word (s.cap.setWidth 64))

end Sys2Proof.Machine
end

