-- ==== Sys2Proof/Machine/Dispatch.lean ====
section
/-! DEFINITION. The dispatch: one arm per command (spec 30_encoding R86), each one call of that command's meaning. -/
namespace Sys2Proof.Machine

def exec (i : Instr) (s : State) : Host.Outcome State Fault Refusal :=
  match i with
  | .hash32 => Sys2Proof.Machine.execHash32 s
  | .hash64 => Sys2Proof.Machine.execHash64 s
  | .hash64Seed => Sys2Proof.Machine.execHash64Seed s
  | .murmur128 => Sys2Proof.Machine.execMurmur128 s
  | .murmur128Seed => Sys2Proof.Machine.execMurmur128Seed s
  | .hash128 => Sys2Proof.Machine.execHash128 s
  | .hash128Seed => Sys2Proof.Machine.execHash128Seed s
  | .hash128Crc => Sys2Proof.Machine.execHash128Crc s
  | .hash128CrcSeed => Sys2Proof.Machine.execHash128CrcSeed s
  | .hash256Crc => Sys2Proof.Machine.execHash256Crc s
  | .hash256CrcSeed => Sys2Proof.Machine.execHash256CrcSeed s
  | .readle64 => Sys2Proof.Machine.execReadle64 s
  | .readle32 => Sys2Proof.Machine.execReadle32 s
  | .shiftmix => Sys2Proof.Machine.execShiftmix s
  | .hashlen16 => Sys2Proof.Machine.execHashlen16 s
  | .hashlen16m => Sys2Proof.Machine.execHashlen16m s
  | .fmix32 => Sys2Proof.Machine.execFmix32 s
  | .mur32 => Sys2Proof.Machine.execMur32 s
  | .rotr64 r => Sys2Proof.Machine.execRotr64 r s
  | .rotr32 r => Sys2Proof.Machine.execRotr32 r s
  | .bswap64 => Sys2Proof.Machine.execBswap64 s
  | .bswap32 => Sys2Proof.Machine.execBswap32 s
  | .weakhash32 => Sys2Proof.Machine.execWeakhash32 s
  | .crc32c => Sys2Proof.Machine.execCrc32c s
  | .mov dst src => Sys2Proof.Machine.execMov dst src s
  | .rdsel => Sys2Proof.Machine.execRdsel s
  | .rdcap => Sys2Proof.Machine.execRdcap s

end Sys2Proof.Machine
end

