-- ==== Sys2Proof/Machine/Lines.lean ====
section
/-! DEFINITION. What one line of the host does: a command word presented by a context (spec 30_encoding R80, R95), the
host actions (R91) and the reset of the whole core (70 R320). -/
namespace Sys2Proof.Machine

/-- Presents the command word to the executing context: a legal word runs its command, an illegal one raises
ILLEGAL_COMMAND (spec R87, R95). -/
def State.presentWord (s : State) (cw : Word32) : Host.Outcome State Fault Refusal :=
  match decode cw with
  | .ok i => exec i s
  | .error _ => s.illegal cw

/-- A host action of a context, whether it has faulted or not (spec R91, R296). -/
def State.hostAct (s : State) (ctx : Nat) (act : Context → Host.Outcome State Fault Refusal) :
    Host.Outcome State Fault Refusal :=
  match s.ctxs[ctx]? with
  | none => .fault .noSuchContext
  | some c => act c

/-- `SET reg, v` (spec R91). -/
def State.hostSet (s : State) (ctx : Nat) (r : OpReg) (v : Word64) : Host.Outcome State Fault Refusal :=
  s.hostAct ctx fun c => .next { s with ctxs := s.ctxs.set ctx (c.setOpReg r v) }

/-- `LOADIN bytes` (spec R91); LEN cannot express 2^64 bytes or more (D16, ID-12). -/
def State.hostLoadIn (s : State) (ctx : Nat) (bs : List Byte) : Host.Outcome State Fault Refusal :=
  s.hostAct ctx fun c =>
    if bs.length < 2 ^ 64 then .next { s with ctxs := s.ctxs.set ctx (c.setInput bs) } else .refused .inputTooLong

/-- A register's value to the host, or no value when it is unwritten (spec R91). -/
def Reg.toHost (r : Reg) : Option HostValue := if r.written then some (.word r.value) else none

/-- What `READ reg` returns (spec R91, R37, log 12, log 25). -/
def Context.hostValue (c : Context) : HostReg → Option HostValue
  | .operand r => (c.opReg r).toHost
  | .result r => (c.resReg r).toHost
  | .inBuf => if c.inBuf.written then some (.bytes (Memory.bytes c.inBuf.cells)) else none
  | .len => if c.inBuf.written then some (.word (BitVec.ofNat 64 c.len)) else none
  | .fault => some (.word (c.fault.setWidth 64))
  | .faultInfo => some (.word c.faultInfo)

/-- `READ reg`: the value goes to the host and no register changes (spec R91). -/
def State.hostRead (s : State) (ctx : Nat) (r : HostReg) : Host.Outcome State Fault Refusal :=
  s.hostAct ctx fun c => .next { s with readOut := c.hostValue r }

/-- The reset of the whole core: every context and SEL to their values of R46; CAP is unchanged (spec R320, log 14). -/
def State.resetCore (s : State) : State :=
  { s with ctxs := List.replicate s.ctxs.length Context.reset, sel := .uninit }

/-- One line of the host, with the lines after it already in place. -/
def State.takeLine (s : State) (l : HostLine) : Host.Outcome State Fault Refusal :=
  match l with
  | .command ctx cw => State.presentWord { s with cur := ctx } cw
  | .set ctx r v => s.hostSet ctx r v
  | .loadIn ctx bs => s.hostLoadIn ctx bs
  | .read ctx r => s.hostRead ctx r
  | .reset => .next s.resetCore

/-- The word that an instruction of `nbits` bits `w` presents: one 32-bit number, the bits at and above `nbits` zero
(spec R80). -/
def wordOf (nbits w : Nat) : Word32 := BitVec.ofNat 32 (w % 2 ^ nbits)

end Sys2Proof.Machine
end

