-- ==== Sys2Proof/Machine/Step.lean ====
section
/-! DEFINITION. One step of the core: it takes the oldest line of the host; with no line every context waits (spec R39,
R95, R322, log 1, log 22). -/
namespace Sys2Proof.Machine

def step (s : State) : Host.Outcome State Fault Refusal :=
  match s.inputs with
  | [] => .next s
  | l :: rest => State.takeLine { s with inputs := rest } l

/-- `s` with the word presented next to its executing context, so that the very next step runs it: the core fetches no
instructions, the host presents them (spec R39, R322, log 2). -/
def State.withFetchWord (s : State) (nbits w : Nat) : State :=
  { s with inputs := .command s.cur (wordOf nbits w) :: s.inputs }

end Sys2Proof.Machine
end

