-- ==== Sys2Proof/Safety.lean ====
section
/-! DEFINITION. The terms in which claims speak of the core: the tables of spec 30_encoding R87 and R97 written apart from
the machine, when a command may run (70 R323), the states a command leaves (R95, R295), the invariant of every step, and
when two states differ only where no claim may look (10_state R36). -/
namespace Sys2Proof.Machine

/-- The registers each command reads, in id order (spec R97). -/
def readsOf : Instr → List Source
  | .hash32 => [.input]
  | .hash64 => [.input]
  | .hash64Seed => [.op .seed0, .input]
  | .murmur128 => [.input]
  | .murmur128Seed => [.op .seed0, .op .seed1, .input]
  | .hash128 => [.input]
  | .hash128Seed => [.op .seed0, .op .seed1, .input]
  | .hash128Crc => [.input]
  | .hash128CrcSeed => [.op .seed0, .op .seed1, .input]
  | .hash256Crc => [.input]
  | .hash256CrcSeed => [.op .seed0, .input]
  | .readle64 => [.op .arg0, .input]
  | .readle32 => [.op .arg0, .input]
  | .shiftmix => [.op .arg0]
  | .hashlen16 => [.op .arg0, .op .arg1]
  | .hashlen16m => [.op .arg0, .op .arg1, .op .arg2]
  | .fmix32 => [.op .arg0]
  | .mur32 => [.op .arg0, .op .arg1]
  | .rotr64 _ => [.op .arg0]
  | .rotr32 _ => [.op .arg0]
  | .bswap64 => [.op .arg0]
  | .bswap32 => [.op .arg0]
  | .weakhash32 => [.op .arg0, .op .arg1, .op .arg2, .input]
  | .crc32c => [.op .arg0, .op .arg1]
  | .mov _ src => [.res src]
  | .rdsel => []
  | .rdcap => []

/-- How many result words a command's rule names, RES0 first; `MOV` names none (spec R97, third column). -/
def resultWords : Instr → Nat
  | .mov _ _ => 0
  | .hash256Crc | .hash256CrcSeed => 4
  | .murmur128 | .murmur128Seed | .hash128 | .hash128Seed | .hash128Crc | .hash128CrcSeed | .weakhash32 => 2
  | .hash32 | .hash64 | .hash64Seed | .readle64 | .readle32 | .shiftmix | .hashlen16 | .hashlen16m | .fmix32 | .mur32
  | .rotr64 _ | .rotr32 _ | .bswap64 | .bswap32 | .crc32c | .rdsel | .rdcap => 1

/-- The bytes a primitive command reads at the offset in ARG0 (spec R293). -/
def readWidth : Instr → Option Nat
  | .readle64 => some 8
  | .readle32 => some 4
  | .weakhash32 => some 32
  | .hash32 | .hash64 | .hash64Seed | .murmur128 | .murmur128Seed | .hash128 | .hash128Seed | .hash128Crc
  | .hash128CrcSeed | .hash256Crc | .hash256CrcSeed | .shiftmix | .hashlen16 | .hashlen16m | .fmix32 | .mur32
  | .rotr64 _ | .rotr32 _ | .bswap64 | .bswap32 | .crc32c | .mov _ _ | .rdsel | .rdcap => none

/-- The commands that evaluate the CRC32C step, and so initialise SEL (spec R260). -/
def usesCrc (i : Instr) (c : Context) : Bool :=
  match i with
  | .hash256Crc | .hash256CrcSeed | .crc32c => true
  | .hash128Crc | .hash128CrcSeed => decide (900 < c.len)
  | .hash32 | .hash64 | .hash64Seed | .murmur128 | .murmur128Seed | .hash128 | .hash128Seed | .readle64 | .readle32
  | .shiftmix | .hashlen16 | .hashlen16m | .fmix32 | .mur32 | .rotr64 _ | .rotr32 _ | .bswap64 | .bswap32 | .weakhash32
  | .mov _ _ | .rdsel | .rdcap => false

/-- Conditions (a)–(e) of spec R87 on the number of a command word, its fields taken by division (R81). -/
def IllegalWord (cw : Word32) : Prop :=
  let opc := cw.toNat % 256
  let imm := cw.toNat / 2 ^ 8 % 64
  let s := cw.toNat / 2 ^ 14 % 4
  let d := cw.toNat / 2 ^ 16 % 8
  let rsv := cw.toNat / 2 ^ 19
  (opc = 0x00 ∨ (0x0C ≤ opc ∧ opc ≤ 0x0F) ∨ (0x1D ≤ opc ∧ opc ≤ 0x1F) ∨ 0x23 ≤ opc)
    ∨ rsv ≠ 0
    ∨ (opc ≠ 0x17 ∧ opc ≠ 0x18 ∧ opc ≠ 0x20 ∧ (imm ≠ 0 ∨ s ≠ 0 ∨ d ≠ 0))
    ∨ ((opc = 0x17 ∨ opc = 0x18) ∧ (s ≠ 0 ∨ d ≠ 0))
    ∨ (opc = 0x20 ∧ imm ≠ 0)
    ∨ (opc = 0x18 ∧ 32 ≤ imm)
    ∨ (opc = 0x20 ∧ 5 ≤ d)

/-- The executing context is `c` and takes steps: FAULT = NONE (spec R95, R296). -/
def State.Ready (s : State) (c : Context) : Prop := s.ctx? = some c ∧ c.fault = faultNone

/-- Every register the command reads is written (spec R36, R323). -/
def Context.Supplied (c : Context) (i : Instr) : Prop := ∀ r ∈ readsOf i, c.isWritten r = true

/-- The bytes the command reads at ARG0 lie in IN (spec R60, R293). -/
def Context.InRange (c : Context) (i : Instr) : Prop := ∀ w, readWidth i = some w → c.arg0.value.toNat + w ≤ c.len

/-- A context after a successful command other than `MOV`: RES0–RES3 written, the index one further, all else as in `c`
(spec R95, R96). -/
def Context.done (c : Context) (d : Digest) : Context where
  arg0 := c.arg0
  arg1 := c.arg1
  arg2 := c.arg2
  seed0 := c.seed0
  seed1 := c.seed1
  res0 := { value := d.r0, written := true }
  res1 := { value := d.r1, written := true }
  res2 := { value := d.r2, written := true }
  res3 := { value := d.r3, written := true }
  inBuf := c.inBuf
  fault := c.fault
  faultInfo := c.faultInfo
  cmdIndex := c.cmdIndex + 1

/-- The state after a successful command other than `MOV`: the executing context as above, all else as in `s`. -/
def State.done (s : State) (c : Context) (d : Digest) : State := { s with ctxs := s.ctxs.set s.cur (c.done d) }

/-- The state after `raise Fault(code, info)`: FAULT and FAULT_INFO of the executing context, all else as in `s`
(spec R295). -/
def State.faultTaken (s : State) (c : Context) (code : BitVec 8) (info : Word64) : State :=
  { s with ctxs := s.ctxs.set s.cur { c with fault := code, faultInfo := info } }

/-- The state after the selector initialisation (spec R260). -/
def State.selChosen (s : State) : State := { s with sel := if s.sel = .uninit then probe s.cap else s.sel }

/-- What holds of a context whatever was run: IN is canonical (R34), RES0–RES3 are written together (R96), FAULT and
FAULT_INFO record what spec R290 says. -/
structure Context.Inv (c : Context) : Prop where
  input : Memory.wf c.inBuf.cells = true
  results : c.res1.written = c.res0.written ∧ c.res2.written = c.res0.written ∧ c.res3.written = c.res0.written
  code : c.fault.toNat ≤ 3
  noneInfo : c.fault = 0#8 → c.faultInfo = 0
  illegalInfo : c.fault = 1#8 → ∃ cw, IllegalWord cw ∧ c.faultInfo = cw.zext64
  unwrittenInfo : c.fault = 2#8 → ∃ r : Source, c.faultInfo = BitVec.ofNat 64 r.id

/-- The invariant of every step: the executing context exists, and every context meets `Context.Inv`. -/
structure State.Inv (s : State) : Prop where
  cur : s.cur < s.ctxs.length
  ctxs : ∀ c ∈ s.ctxs, c.Inv

/-- Two registers that differ at most in a value nobody may read: the value under a clear `written` bit (spec R36). -/
def Reg.Agrees (r r' : Reg) : Prop := r.written = r'.written ∧ (r.written = true → r.value = r'.value)

/-- The same for IN (spec R36). -/
def InBuf.Agrees (b b' : InBuf) : Prop := b.written = b'.written ∧ (b.written = true → b.cells = b'.cells)

/-- Two contexts that differ at most under clear `written` bits. -/
structure Context.Agrees (c c' : Context) : Prop where
  op : ∀ r, (c.opReg r).Agrees (c'.opReg r)
  res : ∀ r, (c.resReg r).Agrees (c'.resReg r)
  inBuf : c.inBuf.Agrees c'.inBuf
  fault : c.fault = c'.fault
  faultInfo : c.faultInfo = c'.faultInfo
  cmdIndex : c.cmdIndex = c'.cmdIndex

/-- Two states that differ at most under clear `written` bits. -/
structure State.Agrees (s s' : State) : Prop where
  ctxs : List.Forall₂ Context.Agrees s.ctxs s'.ctxs
  sel : s.sel = s'.sel
  cap : s.cap = s'.cap
  cur : s.cur = s'.cur
  inputs : s.inputs = s'.inputs
  readOut : s.readOut = s'.readOut

/-- Two outcomes alike: next states that agree, or the same stop. -/
inductive OutcomesAgree : Host.Outcome State Fault Refusal → Host.Outcome State Fault Refusal → Prop where
  | next {t t' : State} (h : t.Agrees t') : OutcomesAgree (.next t) (.next t')
  | fault (r : Fault) : OutcomesAgree (.fault r) (.fault r)
  | refused (r : Refusal) : OutcomesAgree (.refused r) (.refused r)

/-- Two contexts hold the same in a register that a command reads. -/
def Context.SameAt (c c' : Context) : Source → Prop
  | .op r => (c.opReg r).value = (c'.opReg r).value
  | .res r => (c.resReg r).value = (c'.resReg r).value
  | .input => c.inBuf.cells = c'.inBuf.cells

/-- Two byte sequences that are the same inside their bounds, whatever they hold outside (spec R60, R297(b)). -/
def ByteSeq.AgreeInside (S T : ByteSeq) : Prop := S.len = T.len ∧ ∀ i < S.len, S.byte i = T.byte i

/-- The command run by context `k` (spec R303). -/
def State.runAs (s : State) (k : Nat) (i : Instr) : Host.Outcome State Fault Refusal := exec i { s with cur := k }

/-- The number of the context a line belongs to; the reset belongs to none (spec R91, R320). -/
def HostLine.ctx? : HostLine → Option Nat
  | .command k _ => some k
  | .set k _ _ => some k
  | .loadIn k _ => some k
  | .read k _ => some k
  | .reset => none

/-- The loop of spec R222 as it is written: two chunks, `p <- p + 128`, `rem <- rem − 128`, until `rem < 128`; the answer is
the state words with `p` and `rem`. The fuel bounds the repetitions. -/
def repeat222 (S : ByteSeq) : Nat → Nat → Nat → H64 → H64 × Nat × Nat
  | 0, rem, p, st => (st, p, rem)
  | fuel + 1, rem, p, st =>
    let st := chunk64 S (p + 64) (chunk64 S p st)
    if rem - 128 < 128 then (st, p + 128, rem - 128) else repeat222 S fuel (rem - 128) (p + 128) st

/-- The loop of spec R224 as it is written: `while t < rem`, with `t <- t + 32` and `q <- p + rem − t` first. -/
def while224 (S : ByteSeq) (p rem : Nat) : Nat → Nat → H64 → H64
  | 0, _, st => st
  | fuel + 1, t, st =>
    if t < rem then while224 S p rem fuel (t + 32) (h128TailStep S (p + rem - (t + 32)) st) else st

/-- The loop of spec R255 as it is written: `while rem ≥ 40`, with `p <- p + 40` and `rem <- rem − 40`; the answer is the
state words with the last `rem`. -/
def while255 (S : ByteSeq) : Nat → Nat → Nat → Crc → Crc × Nat
  | 0, rem, _, st => (st, rem)
  | fuel + 1, rem, p, st => if 40 ≤ rem then while255 S fuel (rem - 40) (p + 40) (crcRemChunk S p st) else (st, rem)

/-- `h128_long` with the loops of R222 and R224 as they are written (spec R221–R225). -/
def h128LongAsWritten (S : ByteSeq) (seedLo seedHi : Word64) : Word64 × Word64 :=
  let r := repeat222 S S.len S.len 0 (h128Init S seedLo seedHi)
  h128Final (while224 S r.2.1 r.2.2 S.len 0 (h128Mix r.1))

/-- `crc256Long` with the loop of R255 and the test of R256 as they are written (spec R252–R257). -/
def crc256LongAsWritten (S : ByteSeq) (seed32 : Word32) : Digest :=
  let groups := S.len / 240
  let r := while255 S S.len (S.len - 240 * groups) (240 * groups) (crcGroups S groups 0 (crcInit S seed32))
  crcFinal (if 0 < r.2 then crcLast S r.1 else r.1)

end Sys2Proof.Machine
end

