-- ==== Sys2Proof/Certificates/Slice0/Obligations.lean ====
section
/-! DEFINITION. The statements about the core, from the numbered rules of the spec. Each name says what it states; the
docstring cites the rule. `s.Ready c` says that the executing context is `c` and has not faulted, `c.Supplied i` that every
register `i` reads is written (spec R323). -/

open Sys2Proof Sys2Proof.Machine

/-! ## Encoding -/

/-- Decoding the word of a well-formed command gives the command back (spec R81–R86, R90). -/
def Obligations.DecodeOfEncode : Prop := ∀ i : Instr, i.wellFormed = true → decode (encode i) = .ok i

/-- A word that decodes is the word of the command it decodes to, and that command is well formed: no bit of a legal word
is ignored (spec R82, R87–R90). -/
def Obligations.EncodeOfDecode : Prop :=
  ∀ (cw : Word32) (i : Instr), decode cw = .ok i → encode i = cw ∧ i.wellFormed = true

/-- The words the decoder refuses are those of spec R87 (a)–(e), and each raises ILLEGAL_COMMAND with the word as
information, whatever is unwritten, and leaves all else as it was (R87, R291). -/
def Obligations.IllegalWordsRaiseIllegalCommand : Prop :=
  (∀ cw : Word32, (∃ e, decode cw = .error e) ↔ IllegalWord cw) ∧
  (∀ (s : State) (k : Nat) (c : Context) (cw : Word32) (rest : List HostLine),
    s.inputs = .command k cw :: rest → s.ctxs[k]? = some c → c.fault = faultNone → IllegalWord cw →
    step s = .next (State.faultTaken { s with cur := k, inputs := rest } c 1#8 (cw.setWidth 64)))

/-- Words written out from the encoding table decode to the commands they stand for (spec R86, R90). -/
def Obligations.DecodingSampleWords : Prop :=
  decode 0x00000001#32 = .ok .hash32 ∧ decode 0x00000003#32 = .ok .hash64Seed ∧
  decode 0x00000005#32 = .ok .murmur128Seed ∧ decode 0x00000009#32 = .ok .hash128CrcSeed ∧
  decode 0x0000000B#32 = .ok .hash256CrcSeed ∧ decode 0x0000001B#32 = .ok .weakhash32 ∧
  decode 0x00002517#32 = .ok (.rotr64 37) ∧ decode 0x00001318#32 = .ok (.rotr32 19) ∧
  decode 0x00034020#32 = .ok (.mov .seed0 .res1) ∧ decode 0x0004C020#32 = .ok (.mov .seed1 .res3) ∧
  decode 0x00000022#32 = .ok .rdcap

/-! ## The step -/

/-- A step on a presented word runs the command it decodes to, in the context that presents it, with the line taken; and a
word of the opcode table placed next runs as the very next step (spec R80, R95; how lines are held is log 1 and log 2). -/
def Obligations.StepRunsDecodedCommand : Prop :=
  (∀ (s : State) (k : Nat) (cw : Word32) (rest : List HostLine) (i : Instr),
    s.inputs = .command k cw :: rest → decode cw = .ok i → step s = exec i { s with cur := k, inputs := rest }) ∧
  (∀ (s : State) (nbits w : Nat) (i : Instr),
    decodeTableWord nbits w = some i → step (s.withFetchWord nbits w) = exec i s)

/-- With no line pending, every context waits and nothing changes (spec R322; the waiting step is log 22). -/
def Obligations.CoreWaitsWithoutLine : Prop := ∀ s : State, s.inputs = [] → step s = .next s

/-- After reset: SEL is UNINIT with code 0, CAP is the platform's, there are N_CTX ≥ 1 contexts, and in each FAULT,
FAULT_INFO and the command index are 0 and no register is written, so that every well-formed command with a read records
its first read as unwritten (spec R46, R321). -/
def Obligations.ResetState : Prop :=
  State.reset.sel = .uninit ∧ State.reset.sel.code = 0#2 ∧ State.reset.cap = Config.platformCap ∧
  State.reset.ctxs.length = Config.nCtx ∧ 1 ≤ State.reset.ctxs.length ∧
  (∀ c ∈ State.reset.ctxs, c.fault = 0#8 ∧ c.faultInfo = 0#64 ∧ c.cmdIndex = 0 ∧ ∀ r : Source, c.isWritten r = false) ∧
  (∀ (i : Instr) (r : Source), i.wellFormed = true → (readsOf i).head? = some r →
    exec i State.reset = .next (State.reset.faultTaken Context.reset 2#8 (BitVec.ofNat 64 r.id)))

/-- The reset line gives every context and SEL their values of spec R46, keeps CAP and the number of contexts, and leaves
the lines that follow (R320; what stays of the model's own fields is log 14). -/
def Obligations.ResetLineResetsEveryContext : Prop :=
  ∀ (s : State) (rest : List HostLine), s.inputs = .reset :: rest →
    ∃ t, step s = .next t ∧ t.sel = .uninit ∧ t.cap = s.cap ∧ t.ctxs.length = s.ctxs.length ∧ t.inputs = rest ∧
      ∀ c ∈ t.ctxs, c.fault = 0#8 ∧ c.faultInfo = 0#64 ∧ c.cmdIndex = 0 ∧ ∀ r : Source, c.isWritten r = false

/-- Every step keeps the invariant: IN canonical with a length of 64 bits, RES0–RES3 written together, FAULT at most 3,
FAULT_INFO as the code says, the executing context there (spec R34, R96, R290). -/
def Obligations.StepKeepsStateInv : Prop := ∀ s t : State, s.Inv → step s = .next t → t.Inv

/-- The invariant holds after reset (spec R46). -/
def Obligations.ResetMeetsStateInv : Prop := State.reset.Inv

/-! ## Frames -/

/-- What a command leaves unchanged, whichever it is: CAP, the host's lines and port, every other context, every byte of IN
of every context, every operand and seed register but the destination of `MOV`, RES0–RES3 under `MOV`, and SEL unless the
command evaluates the CRC32C step. In the executing context either FAULT and FAULT_INFO are unchanged, or everything else
is (spec R30, R41, R63, R95–R97, R143, R295). -/
def Obligations.CommandFrame : Prop :=
  ∀ (i : Instr) (s t : State), exec i s = .next t →
    t.cap = s.cap ∧ t.cur = s.cur ∧ t.inputs = s.inputs ∧ t.readOut = s.readOut ∧
    t.ctxs.length = s.ctxs.length ∧ (∀ k, k ≠ s.cur → t.ctxs[k]? = s.ctxs[k]?) ∧
    ((∀ c, s.ctx? = some c → usesCrc i c = false) → t.sel = s.sel) ∧
    (∀ (k : Nat) (c c' : Context), s.ctxs[k]? = some c → t.ctxs[k]? = some c' →
      (∀ a, Memory.read c'.inBuf.cells a = Memory.read c.inBuf.cells a) ∧ c'.inBuf = c.inBuf ∧
      (∀ r : OpReg, (∀ src, i ≠ .mov r src) → c'.opReg r = c.opReg r) ∧
      (∀ dst src, i = .mov dst src → ∀ r : ResReg, c'.resReg r = c.resReg r) ∧
      ((c'.fault = c.fault ∧ c'.faultInfo = c.faultInfo) ∨
        c' = { c with fault := c'.fault, faultInfo := c'.faultInfo }))

/-- A step on a line of context `k` changes no other context (spec R30). -/
def Obligations.ContextWritesStayHome : Prop :=
  ∀ (s t : State) (l : HostLine) (rest : List HostLine) (k : Nat),
    s.inputs = l :: rest → l.ctx? = some k → step s = .next t → ∀ j, j ≠ k → t.ctxs[j]? = s.ctxs[j]?

/-- A step on a line of context `k` reads no other context: states with the same context `k`, SEL and CAP answer alike in
them and in what the host reads (spec R30). -/
def Obligations.ContextReadsStayHome : Prop :=
  ∀ (s s' t : State) (l : HostLine) (rest : List HostLine) (k : Nat),
    s.inputs = l :: rest → s'.inputs = l :: rest → l.ctx? = some k → s'.ctxs[k]? = s.ctxs[k]? → s'.sel = s.sel →
    s'.cap = s.cap → s'.readOut = s.readOut → step s = .next t →
    ∃ t', step s' = .next t' ∧ t'.ctxs[k]? = t.ctxs[k]? ∧ t'.sel = t.sel ∧ t'.readOut = t.readOut

/-- No step changes CAP or the number of contexts (spec R6, R41). -/
def Obligations.CapAndContextCountConstant : Prop :=
  ∀ s t : State, step s = .next t → t.cap = s.cap ∧ t.ctxs.length = s.ctxs.length

/-- Only the reset clears a `written` bit (spec R36, R320). -/
def Obligations.WrittenBitsOnlySet : Prop :=
  ∀ (s t : State) (l : HostLine) (rest : List HostLine) (k : Nat) (c : Context),
    s.inputs = l :: rest → l ≠ .reset → s.ctxs[k]? = some c → step s = .next t →
    ∃ c', t.ctxs[k]? = some c' ∧ ∀ r : Source, c.isWritten r = true → c'.isWritten r = true

/-! ## Faults -/

/-- The first unwritten read in id order is recorded, and nothing else changes; the one read of `MOV` has id 8 + S (spec
R292, R295). -/
def Obligations.UnwrittenReadFaults : Prop :=
  (∀ (i : Instr) (s : State) (c : Context) (r : Source), i.wellFormed = true → s.Ready c → r ∈ readsOf i →
    c.isWritten r = false → (∀ q ∈ readsOf i, q.id < r.id → c.isWritten q = true) →
    exec i s = .next (s.faultTaken c 2#8 (BitVec.ofNat 64 r.id))) ∧
  (∀ (dst : OpReg) (src : ResReg), readsOf (.mov dst src) = [.res src] ∧
    (Source.res src).id = 8 + (sourceCode src).toNat)

/-- A primitive command whose window ends past LEN, over the integers, records the offset, and no other command ever
records OUT_OF_BOUNDS (spec R293). -/
def Obligations.OutOfBoundsReadFaults : Prop :=
  (∀ (i : Instr) (w : Nat) (s : State) (c : Context), readWidth i = some w → s.Ready c → c.Supplied i →
    c.len < c.arg0.value.toNat + w → exec i s = .next (s.faultTaken c 3#8 c.arg0.value)) ∧
  (∀ (i : Instr) (s t : State) (c c' : Context), readWidth i = none → s.Ready c → exec i s = .next t →
    t.ctx? = some c' → c'.fault ≠ 3#8)

/-- A command that leaves its context faulted changed FAULT and FAULT_INFO and nothing else, SEL included (spec R294,
R295). -/
def Obligations.FaultIsPrecise : Prop :=
  ∀ (i : Instr) (s t : State) (c c' : Context), s.Ready c → exec i s = .next t → t.ctx? = some c' →
    c'.fault ≠ faultNone →
    ∃ code info, (code = 1#8 ∨ code = 2#8 ∨ code = 3#8) ∧ t = s.faultTaken c code info

/-- A faulted context takes no step: its command changes no state, a presented word, legal or not, is only taken from the
host's lines, and no line but the reset changes its FAULT and FAULT_INFO (spec R296; that the line is taken is log 13). -/
def Obligations.FaultedContextIsStuck : Prop :=
  (∀ (i : Instr) (s : State) (c : Context), s.ctx? = some c → c.fault ≠ faultNone → exec i s = .next s) ∧
  (∀ (s : State) (k : Nat) (c : Context) (cw : Word32) (rest : List HostLine),
    s.inputs = .command k cw :: rest → s.ctxs[k]? = some c → c.fault ≠ faultNone →
    step s = .next { s with cur := k, inputs := rest }) ∧
  (∀ (s t : State) (l : HostLine) (rest : List HostLine) (k : Nat) (c : Context),
    s.inputs = l :: rest → l ≠ .reset → s.ctxs[k]? = some c → c.fault ≠ faultNone → step s = .next t →
    ∃ c', t.ctxs[k]? = some c' ∧ c'.fault = c.fault ∧ c'.faultInfo = c.faultInfo)

/-- A command is never refused, and stops only where its context does not exist (spec R295, R328; log 10). -/
def Obligations.ExecNeverRefuses : Prop :=
  ∀ (i : Instr) (s : State), (∃ t, exec i s = .next t) ∨ (s.ctx? = none ∧ exec i s = .fault .noSuchContext)

/-! ## What each command does -/

/-- The primitive commands without IN complete with their rule's word in RES0 and 0 in RES1–RES3 (spec R132–R140). -/
def Obligations.PrimitivesComplete : Prop :=
  ∀ (s : State) (c : Context), s.Ready c →
    (c.Supplied .shiftmix →
      exec .shiftmix s = .next (s.done c (.word (c.arg0.value ^^^ (c.arg0.value >>> 47))))) ∧
    (c.Supplied .hashlen16 →
      exec .hashlen16 s = .next (s.done c (.word (hashLen16Mul c.arg0.value c.arg1.value 0x9ddfea08eb382d69#64)))) ∧
    (c.Supplied .hashlen16m →
      exec .hashlen16m s = .next (s.done c (.word (hashLen16Mul c.arg0.value c.arg1.value c.arg2.value)))) ∧
    (c.Supplied .fmix32 →
      exec .fmix32 s = .next (s.done c (.word ((fmix32 (c.arg0.value.setWidth 32)).setWidth 64)))) ∧
    (c.Supplied .mur32 →
      exec .mur32 s =
        .next (s.done c (.word ((mur32 (c.arg0.value.setWidth 32) (c.arg1.value.setWidth 32)).setWidth 64)))) ∧
    (∀ r, c.Supplied (.rotr64 r) → exec (.rotr64 r) s = .next (s.done c (.word (rotr64 c.arg0.value r.toNat)))) ∧
    (∀ r, c.Supplied (.rotr32 r) → r.toNat < 32 →
      exec (.rotr32 r) s = .next (s.done c (.word ((rotr32 (c.arg0.value.setWidth 32) r.toNat).setWidth 64)))) ∧
    (c.Supplied .bswap64 → exec .bswap64 s = .next (s.done c (.word (bswap64 c.arg0.value)))) ∧
    (c.Supplied .bswap32 →
      exec .bswap32 s = .next (s.done c (.word ((bswap32 (c.arg0.value.setWidth 32)).setWidth 64))))

/-- The three commands that read IN at ARG0 complete when their window lies in IN (spec R130, R131, R141). -/
def Obligations.BoundedReadsComplete : Prop :=
  ∀ (s : State) (c : Context), s.Ready c →
    (c.Supplied .readle64 → c.arg0.value.toNat + 8 ≤ c.len →
      exec .readle64 s = .next (s.done c (.word (c.input.rd64 c.arg0.value.toNat)))) ∧
    (c.Supplied .readle32 → c.arg0.value.toNat + 4 ≤ c.len →
      exec .readle32 s = .next (s.done c (.word ((c.input.rd32 c.arg0.value.toNat).setWidth 64)))) ∧
    (c.Supplied .weakhash32 → c.arg0.value.toNat + 32 ≤ c.len →
      exec .weakhash32 s =
        .next (s.done c (.pair (weakHash32At c.input c.arg0.value.toNat c.arg1.value c.arg2.value))))

/-- The hash commands that never evaluate the CRC32C step complete on every input, the empty one included, with SEL
unchanged (spec R157, R177–R179, R205, R206, R229, R230). -/
def Obligations.HashCommandsComplete : Prop :=
  ∀ (s : State) (c : Context), s.Ready c →
    (c.Supplied .hash32 → exec .hash32 s = .next (s.done c (.word ((hash32 c.input).setWidth 64)))) ∧
    (c.Supplied .hash64 → exec .hash64 s = .next (s.done c (.word (hash64 c.input)))) ∧
    (c.Supplied .hash64Seed →
      exec .hash64Seed s =
        .next (s.done c (.word (hashLen16 (hash64 c.input - 0xc3a5c85c97cb3127#64) c.seed0.value)))) ∧
    (c.Supplied .murmur128 → exec .murmur128 s = .next (s.done c (.pair (cityMurmur c.input 0 0)))) ∧
    (c.Supplied .murmur128Seed →
      exec .murmur128Seed s = .next (s.done c (.pair (cityMurmur c.input c.seed0.value c.seed1.value)))) ∧
    (c.Supplied .hash128 → exec .hash128 s = .next (s.done c (.pair (hash128 c.input)))) ∧
    (c.Supplied .hash128Seed →
      exec .hash128Seed s = .next (s.done c (.pair (hash128Seeded c.input c.seed0.value c.seed1.value))))

/-- The commands that evaluate the CRC32C step complete on every input and choose the backend first; the 128-bit wrappers
do so only when LEN > 900 (spec R142, R231, R232, R260, R262, R263). -/
def Obligations.CrcCommandsComplete : Prop :=
  ∀ (s : State) (c : Context), s.Ready c →
    (c.Supplied .crc32c →
      exec .crc32c s = .next (s.selChosen.done c (.word (crc32cU64 c.arg0.value c.arg1.value)))) ∧
    (c.Supplied .hash256Crc → exec .hash256Crc s = .next (s.selChosen.done c (hash256Crc c.input))) ∧
    (c.Supplied .hash256CrcSeed →
      exec .hash256CrcSeed s =
        .next (s.selChosen.done c (hash256CrcSeeded c.input (c.seed0.value.setWidth 32)))) ∧
    (c.Supplied .hash128Crc →
      exec .hash128Crc s = .next ((if 900 < c.len then s.selChosen else s).done c (.pair (hash128Crc c.input)))) ∧
    (c.Supplied .hash128CrcSeed →
      exec .hash128CrcSeed s =
        .next ((if 900 < c.len then s.selChosen else s).done c
          (.pair (hash128CrcSeeded c.input c.seed0.value c.seed1.value))))

/-- `MOV dst, RESn` copies the word, marks the destination written, advances the index and changes nothing else (spec
R143, R96). -/
def Obligations.MovCopiesResult : Prop :=
  ∀ (s : State) (c : Context) (dst : OpReg) (src : ResReg), s.Ready c → c.Supplied (.mov dst src) →
    ∃ c', exec (.mov dst src) s = .next { s with ctxs := s.ctxs.set s.cur c' } ∧
      c'.opReg dst = { value := (c.resReg src).value, written := true } ∧
      (∀ r, r ≠ dst → c'.opReg r = c.opReg r) ∧ (∀ r, c'.resReg r = c.resReg r) ∧ c'.inBuf = c.inBuf ∧
      c'.fault = c.fault ∧ c'.faultInfo = c.faultInfo ∧ c'.cmdIndex = c.cmdIndex + 1

/-- `RDSEL` (0x21) and `RDCAP` (0x22) complete in every context that has not faulted, and leave SEL as it is; before the
selector is chosen `RDSEL` gives 0 (spec R144, R145). -/
def Obligations.SelectorAndCapabilityReads : Prop :=
  ∀ (s : State) (c : Context), s.Ready c →
    exec .rdsel s = .next (s.done c (.word (s.sel.code.setWidth 64))) ∧
    exec .rdcap s = .next (s.done c (.word (s.cap.setWidth 64))) ∧
    (s.sel = .uninit → exec .rdsel s = .next (s.done c (.word 0))) ∧
    decode 0x00000021#32 = .ok .rdsel ∧ decode 0x00000022#32 = .ok .rdcap

/-- Every well-formed command whose reads are written and whose window lies in IN completes without a fault and advances
the index by one, whatever LEN is (spec R39, R297, R323, R328). -/
def Obligations.SuppliedCommandsComplete : Prop :=
  ∀ (i : Instr) (s : State) (c : Context), i.wellFormed = true → s.Ready c → c.Supplied i → c.InRange i →
    ∃ t c', exec i s = .next t ∧ t.ctx? = some c' ∧ c'.fault = faultNone ∧ c'.cmdIndex = c.cmdIndex + 1

/-- A command that leaves no fault advanced the index by one; `MOV` left RES0–RES3 alone; every other command wrote all
four and put 0 in those its rule does not name (spec R39, R96, R97). -/
def Obligations.SuccessWritesResults : Prop :=
  ∀ (i : Instr) (s t : State) (c c' : Context), s.Ready c → exec i s = .next t → t.ctx? = some c' →
    c'.fault = faultNone →
    c'.cmdIndex = c.cmdIndex + 1 ∧
    (∀ dst src, i = .mov dst src → ∀ r, c'.resReg r = c.resReg r) ∧
    ((∀ dst src, i ≠ .mov dst src) →
      (∀ r, (c'.resReg r).written = true) ∧ (resultWords i ≤ 1 → c'.res1.value = 0#64) ∧
      (resultWords i ≤ 2 → c'.res2.value = 0#64 ∧ c'.res3.value = 0#64))

/-- Commands that the rules make equal: the CRC wrappers and the plain 128-bit commands up to 900 bytes, the seeded
128-bit command and the Murmur hybrid below 128 bytes, the seeded commands at seed 0 and their unseeded forms; above 900
bytes HASH128_CRC holds the high half of the 256-bit digest (spec R205, R220, R227, R228, R258). -/
def Obligations.EqualCommands : Prop :=
  ∀ (s : State) (c : Context), s.Ready c →
    (c.len ≤ 900 → exec .hash128Crc s = exec .hash128 s ∧ exec .hash128CrcSeed s = exec .hash128Seed s) ∧
    (c.len < 128 → exec .hash128Seed s = exec .murmur128Seed s) ∧
    (c.seed0 = { value := 0, written := true } → c.seed1 = { value := 0, written := true } →
      exec .murmur128Seed s = exec .murmur128 s) ∧
    (c.seed0.written = true → c.seed0.value.setWidth 32 = 0#32 → exec .hash256CrcSeed s = exec .hash256Crc s) ∧
    (900 < c.len → c.inBuf.written = true →
      exec .hash128Crc s =
        .next (s.selChosen.done c
          { r0 := (hash256Crc c.input).r2, r1 := (hash256Crc c.input).r3, r2 := 0, r3 := 0 }))

/-! ## The selector and the backends -/

/-- SEL is written at most once between resets: any line but the reset leaves it, or takes it from UNINIT to probe(CAP)
(spec R40, R260). -/
def Obligations.SelectorWrittenOnce : Prop :=
  ∀ (s t : State) (l : HostLine) (rest : List HostLine), s.inputs = l :: rest → l ≠ .reset → step s = .next t →
    (s.sel ≠ .uninit → t.sel = s.sel) ∧ (s.sel = .uninit → t.sel = .uninit ∨ t.sel = probe s.cap)

/-- Which commands choose the backend: exactly those that evaluate the CRC32C step, when they complete; a command that
faults leaves SEL (spec R260, R294). -/
def Obligations.SelectorChosenByCrcCommands : Prop :=
  ∀ (i : Instr) (s t : State) (c c' : Context), s.Ready c → exec i s = .next t → t.ctx? = some c' →
    (c'.fault = faultNone → t.sel = if usesCrc i c = true ∧ s.sel = .uninit then probe s.cap else s.sel) ∧
    (c'.fault ≠ faultNone → t.sel = s.sel)

/-- `probe(CAP)`: X86 if bit 0 is set, else ARM if bit 1 is set, else GENERIC (spec R259), with the codes of R40. -/
def Obligations.ProbeChoosesBackend : Prop :=
  ∀ cap : BitVec 2,
    (cap.getLsbD 0 = true → probe cap = .x86) ∧
    (cap.getLsbD 0 = false → cap.getLsbD 1 = true → probe cap = .arm) ∧
    (cap.getLsbD 0 = false → cap.getLsbD 1 = false → probe cap = .generic) ∧
    Selector.uninit.code = 0#2 ∧ Selector.generic.code = 1#2 ∧ Selector.x86.code = 2#2 ∧ Selector.arm.code = 3#2

/-- No backend changes a register: with any SEL and any CAP, every command but RDSEL and RDCAP leaves the same contexts
(spec R125, R261). -/
def Obligations.BackendNeverChangesResults : Prop :=
  ∀ (i : Instr) (s t : State) (sel' : Selector) (cap' : BitVec 2), i ≠ .rdsel → i ≠ .rdcap → exec i s = .next t →
    ∃ t', exec i { s with sel := sel', cap := cap' } = .next t' ∧ t'.ctxs = t.ctxs

/-- Two commands of different contexts give the same contexts, SEL and CAP in either order, unless one of them shows SEL:
the race for the selector has one outcome (spec R303, R326). -/
def Obligations.ContextsCommute : Prop :=
  ∀ (s t1 t12 : State) (a b : Nat) (i j : Instr), a ≠ b → i ≠ .rdsel → j ≠ .rdsel →
    s.runAs a i = .next t1 → t1.runAs b j = .next t12 →
    ∃ t2 t21, s.runAs b j = .next t2 ∧ t2.runAs a i = .next t21 ∧
      t21.ctxs = t12.ctxs ∧ t21.sel = t12.sel ∧ t21.cap = t12.cap

/-! ## What results depend on -/

/-- What a command writes is a function of the registers it reads: two ready contexts that hold the same there get the same
fault or the same results, whatever else differs (spec R11, R85, R97). RDSEL and RDCAP, which read SEL and CAP, are the
exceptions. -/
def Obligations.ResultsDependOnReadsOnly : Prop :=
  ∀ (i : Instr) (s s' : State) (c c' : Context), i ≠ .rdsel → i ≠ .rdcap → s.Ready c → s'.Ready c' →
    c.Supplied i → c'.Supplied i → (∀ r ∈ readsOf i, c.SameAt c' r) →
    ∃ t t' d d', exec i s = .next t ∧ exec i s' = .next t' ∧ t.ctx? = some d ∧ t'.ctx? = some d' ∧
      d.fault = d'.fault ∧ (d.fault ≠ faultNone → d.faultInfo = d'.faultInfo) ∧
      (d.fault = faultNone →
        (∀ dst src, i = .mov dst src → d.opReg dst = d'.opReg dst) ∧
        ((∀ dst src, i ≠ .mov dst src) → ∀ r, d.resReg r = d'.resReg r))

/-- No step lets a value under a clear `written` bit matter: states that differ only there answer alike, and their next
states differ only there (spec R36; so the values named in log 7 and log 8 decide nothing). -/
def Obligations.UnwrittenValuesNeverMatter : Prop :=
  ∀ s s' : State, s.Agrees s' → OutcomesAgree (step s) (step s')

/-- Every digest is a function of the bytes inside its input: no bucket reads outside it, at any length (spec R60,
R297(b)). -/
def Obligations.DigestsReadOnlyInsideInput : Prop :=
  ∀ S T : ByteSeq, S.AgreeInside T →
    hash32 S = hash32 T ∧ hash64 S = hash64 T ∧
    (∀ lo hi, cityMurmur S lo hi = cityMurmur T lo hi) ∧
    hash128 S = hash128 T ∧ (∀ lo hi, hash128Seeded S lo hi = hash128Seeded T lo hi) ∧
    hash128Crc S = hash128Crc T ∧ (∀ lo hi, hash128CrcSeeded S lo hi = hash128CrcSeeded T lo hi) ∧
    hash256Crc S = hash256Crc T ∧ (∀ seed, hash256CrcSeeded S seed = hash256CrcSeeded T seed)

/-- HASH256_CRC_SEED reads SEED0[31:0] only, and below 240 bytes not even that: its results do not change with the rest
(spec R250, R263). -/
def Obligations.SeedBitsIgnored256 : Prop :=
  ∀ (s : State) (c : Context) (v v' : Word64), s.Ready c → c.inBuf.written = true →
    (c.len < 240 ∨ v.setWidth 32 = v'.setWidth 32) →
    ∃ d : Digest,
      exec .hash256CrcSeed (s.setCtx { c with seed0 := { value := v, written := true } }) =
        .next ((s.setCtx { c with seed0 := { value := v, written := true } }).selChosen.done
          { c with seed0 := { value := v, written := true } } d) ∧
      exec .hash256CrcSeed (s.setCtx { c with seed0 := { value := v', written := true } }) =
        .next ((s.setCtx { c with seed0 := { value := v', written := true } }).selChosen.done
          { c with seed0 := { value := v', written := true } } d)

/-! ## Host actions -/

/-- `LOADIN bytes` sets IN to exactly those bytes and LEN to their number, marks IN written and changes no other register,
in a faulted context too (spec R34, R91, R296); 2^64 bytes or more are refused (log 11). -/
def Obligations.LoadInSetsInput : Prop :=
  ∀ (s : State) (k : Nat) (c : Context) (bs : List Byte) (rest : List HostLine),
    s.inputs = .loadIn k bs :: rest → s.ctxs[k]? = some c →
    (bs.length < 2 ^ 64 →
      ∃ c', step s = .next { s with inputs := rest, ctxs := s.ctxs.set k c' } ∧
        c'.len = bs.length ∧ (∀ a, Memory.read c'.inBuf.cells a = bs[a]?) ∧ Memory.bytes c'.inBuf.cells = bs ∧
        Memory.wf c'.inBuf.cells = true ∧ c'.inBuf.written = true ∧ (∀ r, c'.opReg r = c.opReg r) ∧
        (∀ r, c'.resReg r = c.resReg r) ∧ c'.fault = c.fault ∧ c'.faultInfo = c.faultInfo ∧
        c'.cmdIndex = c.cmdIndex) ∧
    (2 ^ 64 ≤ bs.length → step s = .refused .inputTooLong)

/-- `SET reg, v` writes the register, marks it written and changes nothing else, in a faulted context too (spec R36, R91,
R296). -/
def Obligations.SetWritesRegister : Prop :=
  ∀ (s : State) (k : Nat) (c : Context) (r : OpReg) (v : Word64) (rest : List HostLine),
    s.inputs = .set k r v :: rest → s.ctxs[k]? = some c →
    ∃ c', step s = .next { s with inputs := rest, ctxs := s.ctxs.set k c' } ∧
      c'.opReg r = { value := v, written := true } ∧ (∀ q, q ≠ r → c'.opReg q = c.opReg q) ∧
      (∀ q, c'.resReg q = c.resReg q) ∧ c'.inBuf = c.inBuf ∧ c'.fault = c.fault ∧ c'.faultInfo = c.faultInfo ∧
      c'.cmdIndex = c.cmdIndex

/-- `READ reg` returns the register's value, or none when it is unwritten, and changes no register (spec R91, R37; the
port that holds the answer is log 12). -/
def Obligations.ReadReturnsRegister : Prop :=
  ∀ (s : State) (k : Nat) (c : Context) (reg : HostReg) (rest : List HostLine),
    s.inputs = .read k reg :: rest → s.ctxs[k]? = some c →
    ∃ v, step s = .next { s with inputs := rest, readOut := v } ∧
      (∀ r, reg = .operand r → v = if (c.opReg r).written then some (.word (c.opReg r).value) else none) ∧
      (∀ r, reg = .result r → v = if (c.resReg r).written then some (.word (c.resReg r).value) else none) ∧
      (reg = .inBuf → v = if c.inBuf.written then some (.bytes (Memory.bytes c.inBuf.cells)) else none) ∧
      (reg = .len → v = if c.inBuf.written then some (.word (BitVec.ofNat 64 c.len)) else none) ∧
      (reg = .fault → v = some (.word (c.fault.setWidth 64))) ∧ (reg = .faultInfo → v = some (.word c.faultInfo))

/-! ## The primitive functions -/

/-- Rotation to the right: bit i of the result is bit i + r of the operand, around the width (spec R115, R116). -/
def Obligations.RotationsMoveEveryBit : Prop :=
  (∀ (v : Word64) (r i : Nat), r ≤ 63 → i < 64 → (rotr64 v r).getLsbD i = v.getLsbD ((i + r) % 64)) ∧
  (∀ (v : Word32) (r i : Nat), r ≤ 31 → i < 32 → (rotr32 v r).getLsbD i = v.getLsbD ((i + r) % 32))

/-- Result byte i of a byte swap is byte 7 − i, or 3 − i, of the operand, with the examples (spec R113, R114). -/
def Obligations.ByteSwapsReverseBytes : Prop :=
  (∀ (v : Word64) (i : Nat), i < 8 → (bswap64 v).extractLsb' (8 * i) 8 = v.extractLsb' (8 * (7 - i)) 8) ∧
  (∀ (v : Word32) (i : Nat), i < 4 → (bswap32 v).extractLsb' (8 * i) 8 = v.extractLsb' (8 * (3 - i)) 8) ∧
  bswap64 0x0102030405060708#64 = 0x0807060504030201#64 ∧ bswap32 0x01020304#32 = 0x04030201#32

/-- Reads are little-endian at every offset, and a 4-byte read is the low half of the 8-byte read (spec R61, R62). -/
def Obligations.LittleEndianReads : Prop :=
  ∀ (S : ByteSeq) (o : Nat),
    (S.rd64 o).toNat = ∑ i ∈ Finset.range 8, (S.byte (o + i)).toNat * 2 ^ (8 * i) ∧
    (S.rd32 o).toNat = ∑ i ∈ Finset.range 4, (S.byte (o + i)).toNat * 2 ^ (8 * i) ∧
    (S.rd64 o).setWidth 32 = S.rd32 o

/-- `sbyte(S, i)` is the byte below 0x80, else the byte plus 0xFFFFFF00 (spec R112). -/
def Obligations.SignedBytes : Prop :=
  ∀ (S : ByteSeq) (i : Nat),
    S.sbyte i = if (S.byte i).toNat < 0x80 then (S.byte i).setWidth 32 else (S.byte i).setWidth 32 + 0xFFFFFF00#32

/-- `shiftMix` with its corner cases (spec R117). -/
def Obligations.ShiftMixCorners : Prop :=
  (∀ x : Word64, shiftMix x = x ^^^ (x >>> 47)) ∧ shiftMix 0 = 0 ∧
  (∀ (x : Word64) (i : Nat), 47 ≤ i → i ≤ 63 → (shiftMix x).getLsbD i = x.getLsbD i) ∧
  shiftMix 0xFFFFFFFFFFFFFFFF#64 = 0xFFFFFFFFFFFE0000#64 ∧
  shiftMix 0x8000000000000000#64 = 0x8000000000010000#64

/-- `hashLen16` with three arguments: its fold, its corner cases and its example (spec R118). -/
def Obligations.HashLen16Fold : Prop :=
  (∀ u v mul : Word64,
    hashLen16Mul u v mul =
      (((v ^^^ (((u ^^^ v) * mul) ^^^ (((u ^^^ v) * mul) >>> 47))) * mul) ^^^
        (((v ^^^ (((u ^^^ v) * mul) ^^^ (((u ^^^ v) * mul) >>> 47))) * mul) >>> 47)) * mul) ∧
  (∀ u v : Word64, hashLen16Mul u v 0 = 0) ∧ (∀ mul : Word64, hashLen16Mul 0 0 mul = 0) ∧
  (∃ u v mul : Word64, hashLen16Mul u v mul ≠ hashLen16Mul v u mul) ∧
  hashLen16Mul 1 2 0x9ae16a3b2f90404f#64 = 0xb1bb418e84ddda0b#64

/-- The CRC32C step as spec R124 writes it: eight bytes of data, least significant first, eight bits each; only crc[31:0]
matters, and bits 63..32 of the result are 0. -/
def Obligations.Crc32cStep : Prop :=
  (∀ crc data : Word64,
    crc32cU64 crc data =
      ((List.range 8).foldl
        (fun (c : Word32) (i : Nat) =>
          (fun x : Word32 => (x >>> 1) ^^^ (if x.getLsbD 0 then 0x82F63B78#32 else 0#32))^[8]
            (c ^^^ (data.extractLsb' (8 * i) 8).setWidth 32))
        (crc.setWidth 32)).setWidth 64) ∧
  (∀ crc crc' data : Word64, crc.setWidth 32 = crc'.setWidth 32 → crc32cU64 crc data = crc32cU64 crc' data) ∧
  (∀ crc data : Word64, (crc32cU64 crc data).toNat < 2 ^ 32) ∧
  crc32cU64 0 0 = 0 ∧ crc32cU64 0 1 = 0x493c7d27#64 ∧ crc32cU64 0xFFFFFFFF#64 0 = 0x73d74d75#64

/-! ## The families -/

/-- The buckets of the 32-bit family: 0–4, 5–12, 13–24 and above 24 bytes (spec R150). -/
def Obligations.Hash32Buckets : Prop :=
  ∀ S : ByteSeq,
    (S.len ≤ 4 → hash32 S = h32_0to4 S) ∧ (4 < S.len → S.len ≤ 12 → hash32 S = h32_5to12 S) ∧
    (12 < S.len → S.len ≤ 24 → hash32 S = h32_13to24 S) ∧ (24 < S.len → hash32 S = h32_long S)

/-- The 32-bit digest of at most four bytes, as one fold over them, with the examples (spec R151). -/
def Obligations.Hash32ShortInputs : Prop :=
  (∀ S : ByteSeq, S.len ≤ 4 →
    hash32 S =
      (fun bc : Word32 × Word32 => fmix32 (mur32 bc.1 (mur32 (BitVec.ofNat 32 S.len) bc.2)))
        ((List.range S.len).foldl
          (fun (bc : Word32 × Word32) (i : Nat) =>
            (bc.1 * 0xcc9e2d51#32 + S.sbyte i, bc.2 ^^^ (bc.1 * 0xcc9e2d51#32 + S.sbyte i)))
          (0#32, 9#32))) ∧
  hash32 (Memory.seq (Memory.ofBytes [])) = 0xdc56d17a#32 ∧
  hash32 (Memory.seq (Memory.ofBytes [0x80])) = 0x2fc8696b#32 ∧
  hash32 (Memory.seq (Memory.ofBytes [0x61])) = 0x3c973d4d#32

/-- The buckets of the 64-bit family: up to 16, 32 and 64 bytes, and above (spec R170). -/
def Obligations.Hash64Buckets : Prop :=
  ∀ S : ByteSeq,
    (S.len ≤ 16 → hash64 S = h64_0to16 S) ∧ (16 < S.len → S.len ≤ 32 → hash64 S = h64_17to32 S) ∧
    (32 < S.len → S.len ≤ 64 → hash64 S = h64_33to64 S) ∧ (64 < S.len → hash64 S = h64_long S)

/-- The four sub-cases of the 64-bit digest of at most 16 bytes, with the examples; the empty input gives K2 (spec R171). -/
def Obligations.Hash64ShortInputs : Prop :=
  (∀ (S : ByteSeq) (m : Word64), m = 0x9ae16a3b2f90404f#64 + 2 * BitVec.ofNat 64 S.len →
    (8 ≤ S.len → S.len ≤ 16 →
      hash64 S =
        hashLen16Mul (rotr64 (S.rd64 (S.len - 8)) 37 * m + (S.rd64 0 + 0x9ae16a3b2f90404f#64))
          ((rotr64 (S.rd64 0 + 0x9ae16a3b2f90404f#64) 25 + S.rd64 (S.len - 8)) * m) m) ∧
    (4 ≤ S.len → S.len < 8 →
      hash64 S =
        hashLen16Mul (BitVec.ofNat 64 S.len + (S.rd32 0).setWidth 64 <<< 3) ((S.rd32 (S.len - 4)).setWidth 64) m) ∧
    (0 < S.len → S.len < 4 →
      hash64 S =
        shiftMix
          ((((S.byte 0).setWidth 32 + (S.byte (S.len / 2)).setWidth 32 <<< 8 : Word32).setWidth 64
              * 0x9ae16a3b2f90404f#64) ^^^
            ((BitVec.ofNat 32 S.len + (S.byte (S.len - 1)).setWidth 32 <<< 2 : Word32).setWidth 64
              * 0xc3a5c85c97cb3127#64)) * 0x9ae16a3b2f90404f#64) ∧
    (S.len = 0 → hash64 S = 0x9ae16a3b2f90404f#64)) ∧
  hash64 { len := 1, byte := fun i => BitVec.ofNat 8 i } = 0xbe6056edf5e94b54#64 ∧
  hash64 { len := 4, byte := fun i => BitVec.ofNat 8 i } = 0x82bffd898958e540#64 ∧
  hash64 { len := 16, byte := fun i => BitVec.ofNat 8 i } = 0x0efd25a0a34156d4#64

/-- The weak hash of 32 bytes with two seeds: its body, its buffer form and its examples (spec R121). -/
def Obligations.WeakHashBody : Prop :=
  (∀ w x y z a b : Word64,
    weakHash32 w x y z a b =
      (a + w + x + y + z, rotr64 (b + (a + w) + z) 21 + rotr64 (a + w + x + y) 44 + (a + w))) ∧
  (∀ (S : ByteSeq) (o : Nat) (a b : Word64),
    weakHash32At S o a b = weakHash32 (S.rd64 o) (S.rd64 (o + 8)) (S.rd64 (o + 16)) (S.rd64 (o + 24)) a b) ∧
  weakHash32 1 2 3 4 5 6 = (0xf#64, 0x800000b00006#64) ∧
  weakHash32At { len := 32, byte := fun i => BitVec.ofNat 8 i } 0 0 0 = (0x4c4844403c383430#64, 0x5a18d816d595d492#64)

/-- The Murmur hybrid of at most 16 bytes: its branch and the final combine (spec R200, R201, R204). -/
def Obligations.MurmurShortInputs : Prop :=
  ∀ (S : ByteSeq) (lo hi a b c d : Word64), S.len ≤ 16 →
    a = shiftMix (lo * 0xb492b66fbe98f273#64) * 0xb492b66fbe98f273#64 →
    c = hi * 0xb492b66fbe98f273#64 + hash64 S → d = shiftMix (a + if 8 ≤ S.len then S.rd64 0 else c) →
    b = hashLen16 d hi →
    cityMurmur S lo hi = (hashLen16 a c ^^^ b, hashLen16 b (hashLen16 a c))

/-- The seeded CRC-aware 128-bit digest: the plain one up to 900 bytes, above it the four words of the 256-bit digest
recombined with the seed, with one rotate; with the example (spec R228). -/
def Obligations.CrcSeededRecombination : Prop :=
  (∀ (S : ByteSeq) (lo hi : Word64),
    (S.len ≤ 900 → hash128CrcSeeded S lo hi = hash128Seeded S lo hi) ∧
    (900 < S.len → ∀ u v : Word64, u = hi + (hash256Crc S).r0 → v = lo + (hash256Crc S).r1 →
      hash128CrcSeeded S lo hi =
        (hashLen16 u (v + (hash256Crc S).r2),
          hashLen16 (rotr64 v 32) (u * 0xc3a5c85c97cb3127#64 + (hash256Crc S).r3)))) ∧
  hash128CrcSeeded { len := 901, byte := fun i => BitVec.ofNat 8 i } 1 2 = (0xb8cf5cef4b5f6978#64, 0xce8ae02573a44ec2#64)

/-- x, y and z of the 256-bit family are below 2^32 after the initialisation and after every chunk (spec R253, its corner
case). -/
def Obligations.CrcWordsStayBelow32Bits : Prop :=
  (∀ (S : ByteSeq) (seed : Word32), (crcInit S seed).x.toNat < 2 ^ 32 ∧ (crcInit S seed).y.toNat < 2 ^ 32 ∧
    (crcInit S seed).z.toNat < 2 ^ 32) ∧
  (∀ (S : ByteSeq) (q r : Nat) (st : Crc), (crcChunk S q r st).x.toNat < 2 ^ 32 ∧
    (crcChunk S q r st).y.toNat < 2 ^ 32 ∧ (crcChunk S q r st).z.toNat < 2 ^ 32)

/-- From 240 bytes on, the long algorithm runs on the input with the caller's seed; below, it runs on the input followed by
zeros up to 240 bytes, with the NOT of the length for a seed, whatever the caller's seed is (spec R250, R251). -/
def Obligations.ShortInputsArePadded : Prop :=
  ∀ (bs : List Byte) (seed : Word32),
    (240 ≤ bs.length →
      hash256CrcSeeded (Memory.seq (Memory.ofBytes bs)) seed = crc256Long (Memory.seq (Memory.ofBytes bs)) seed) ∧
    (bs.length < 240 →
      hash256CrcSeeded (Memory.seq (Memory.ofBytes bs)) seed =
        crc256Long (Memory.seq (Memory.ofBytes (bs ++ List.replicate (240 - bs.length) 0#8)))
          (BitVec.ofNat 32 (0xFFFFFFFF - bs.length)))

/-- Where the 128-bit entries switch: the seeded one at 128 bytes, the unseeded one at 16 and, on the rest of the input, at
144; with the examples (spec R220, R226). -/
def Obligations.Hash128Boundaries : Prop :=
  ∀ S : ByteSeq,
    (∀ lo hi, S.len < 128 → hash128Seeded S lo hi = cityMurmur S lo hi) ∧
    (∀ lo hi, 128 ≤ S.len → hash128Seeded S lo hi = h128_long S lo hi) ∧
    (S.len < 16 → hash128 S = cityMurmur S 0xc3a5c85c97cb3127#64 0xb492b66fbe98f273#64) ∧
    (16 ≤ S.len → S.len < 144 →
      hash128 S = cityMurmur (S.suffix 16) (S.rd64 0) (S.rd64 8 + 0xc3a5c85c97cb3127#64)) ∧
    (144 ≤ S.len → hash128 S = h128_long (S.suffix 16) (S.rd64 0) (S.rd64 8 + 0xc3a5c85c97cb3127#64)) ∧
    hash128 { len := 0, byte := fun i => BitVec.ofNat 8 i } = (0x3df09dfc64c09a2b#64, 0x3cb540c392e51e29#64) ∧
    hash128 { len := 144, byte := fun i => BitVec.ofNat 8 i } = (0x11a3eb8dc4c0134e#64, 0xcda5dffa39190336#64)

/-- The counted loops of the long 128-bit and 256-bit algorithms compute what the loops of the rules compute as they are
written (spec R222, R224, R255, R256, R327). -/
def Obligations.CountedLoopsFollowTheRules : Prop :=
  (∀ (S : ByteSeq) (lo hi : Word64), 128 ≤ S.len → h128_long S lo hi = h128LongAsWritten S lo hi) ∧
  (∀ (S : ByteSeq) (seed : Word32), 240 ≤ S.len → crc256Long S seed = crc256LongAsWritten S seed)

/-- The six literal vectors of the source, as results of commands (spec 95_test_vectors section 1.1, V1–V6). -/
def Obligations.SourceVectors : Prop :=
  ∀ (s : State) (c : Context), s.Ready c → c.inBuf.written = true →
    (c.inBuf.cells = Memory.ofBytes [] →
      exec .hash64 s = .next (s.done c (.word 11160318154034397263#64)) ∧
      exec .murmur128 s = .next (s.done c (.pair (0xfcf7cc0ecf416467#64, 0xb2369acfccf83dbf#64)))) ∧
    (c.inBuf.cells = Memory.ofBytes
        [0x54, 0x68, 0x65, 0x20, 0x71, 0x75, 0x69, 0x63, 0x6B, 0x20, 0x62, 0x72, 0x6F, 0x77, 0x6E, 0x20, 0x66, 0x6F,
         0x78, 0x20, 0x6A, 0x75, 0x6D, 0x70, 0x73, 0x20, 0x6F, 0x76, 0x65, 0x72, 0x20, 0x74, 0x68, 0x65, 0x20, 0x6C,
         0x61, 0x7A, 0x79, 0x20, 0x64, 0x6F, 0x67] →
      exec .hash64 s = .next (s.done c (.word 14008572299481893501#64))) ∧
    (c.inBuf.cells = Memory.ofBytes [0x31, 0x32, 0x33] →
      exec .murmur128 s = .next (s.done c (.pair (0x9e775dcae13b1141#64, 0x6efabd18231d8f3d#64)))) ∧
    (c.inBuf.cells = Memory.ofBytes [0x48, 0x65, 0x6C, 0x6C, 0x6F, 0x20, 0x43, 0x52, 0x43] →
      exec .hash256Crc s =
        .next (s.selChosen.done c
          { r0 := 0x988ece8e25ce0472#64, r1 := 0x7e18a4b6d72c9bce#64, r2 := 0x481922464e817f5a#64,
            r3 := 0xbc870341b4254799#64 }))
end

