-- ==== Sys2Proof/Laws/State.lean ====
section
/-! SUPPORT. What each update of a context or a state leaves in each field: one lemma per field per update, true by rfl. -/
namespace Sys2Proof.Machine

section Registers
variable (c : Context) (d : Digest) (bs : List Byte) (code : FaultCode) (info v : Word64)

@[simp] theorem Reg.ofWord_value : (Reg.ofWord v).value = v := rfl
@[simp] theorem Reg.ofWord_written : (Reg.ofWord v).written = true := rfl

@[simp] theorem Context.setResults_arg0 : (c.setResults d).arg0 = c.arg0 := rfl
@[simp] theorem Context.setResults_arg1 : (c.setResults d).arg1 = c.arg1 := rfl
@[simp] theorem Context.setResults_arg2 : (c.setResults d).arg2 = c.arg2 := rfl
@[simp] theorem Context.setResults_seed0 : (c.setResults d).seed0 = c.seed0 := rfl
@[simp] theorem Context.setResults_seed1 : (c.setResults d).seed1 = c.seed1 := rfl
@[simp] theorem Context.setResults_res0 : (c.setResults d).res0 = Reg.ofWord d.r0 := rfl
@[simp] theorem Context.setResults_res1 : (c.setResults d).res1 = Reg.ofWord d.r1 := rfl
@[simp] theorem Context.setResults_res2 : (c.setResults d).res2 = Reg.ofWord d.r2 := rfl
@[simp] theorem Context.setResults_res3 : (c.setResults d).res3 = Reg.ofWord d.r3 := rfl
@[simp] theorem Context.setResults_inBuf : (c.setResults d).inBuf = c.inBuf := rfl
@[simp] theorem Context.setResults_fault : (c.setResults d).fault = c.fault := rfl
@[simp] theorem Context.setResults_faultInfo : (c.setResults d).faultInfo = c.faultInfo := rfl
@[simp] theorem Context.setResults_cmdIndex : (c.setResults d).cmdIndex = c.cmdIndex := rfl

@[simp] theorem Context.advance_arg0 : c.advance.arg0 = c.arg0 := rfl
@[simp] theorem Context.advance_arg1 : c.advance.arg1 = c.arg1 := rfl
@[simp] theorem Context.advance_arg2 : c.advance.arg2 = c.arg2 := rfl
@[simp] theorem Context.advance_seed0 : c.advance.seed0 = c.seed0 := rfl
@[simp] theorem Context.advance_seed1 : c.advance.seed1 = c.seed1 := rfl
@[simp] theorem Context.advance_res0 : c.advance.res0 = c.res0 := rfl
@[simp] theorem Context.advance_res1 : c.advance.res1 = c.res1 := rfl
@[simp] theorem Context.advance_res2 : c.advance.res2 = c.res2 := rfl
@[simp] theorem Context.advance_res3 : c.advance.res3 = c.res3 := rfl
@[simp] theorem Context.advance_inBuf : c.advance.inBuf = c.inBuf := rfl
@[simp] theorem Context.advance_fault : c.advance.fault = c.fault := rfl
@[simp] theorem Context.advance_faultInfo : c.advance.faultInfo = c.faultInfo := rfl
@[simp] theorem Context.advance_cmdIndex : c.advance.cmdIndex = c.cmdIndex + 1 := rfl

@[simp] theorem Context.raise_arg0 : (c.raise code info).arg0 = c.arg0 := rfl
@[simp] theorem Context.raise_arg1 : (c.raise code info).arg1 = c.arg1 := rfl
@[simp] theorem Context.raise_arg2 : (c.raise code info).arg2 = c.arg2 := rfl
@[simp] theorem Context.raise_seed0 : (c.raise code info).seed0 = c.seed0 := rfl
@[simp] theorem Context.raise_seed1 : (c.raise code info).seed1 = c.seed1 := rfl
@[simp] theorem Context.raise_res0 : (c.raise code info).res0 = c.res0 := rfl
@[simp] theorem Context.raise_res1 : (c.raise code info).res1 = c.res1 := rfl
@[simp] theorem Context.raise_res2 : (c.raise code info).res2 = c.res2 := rfl
@[simp] theorem Context.raise_res3 : (c.raise code info).res3 = c.res3 := rfl
@[simp] theorem Context.raise_inBuf : (c.raise code info).inBuf = c.inBuf := rfl
@[simp] theorem Context.raise_fault : (c.raise code info).fault = code.code := rfl
@[simp] theorem Context.raise_faultInfo : (c.raise code info).faultInfo = info := rfl
@[simp] theorem Context.raise_cmdIndex : (c.raise code info).cmdIndex = c.cmdIndex := rfl

@[simp] theorem Context.setInput_arg0 : (c.setInput bs).arg0 = c.arg0 := rfl
@[simp] theorem Context.setInput_arg1 : (c.setInput bs).arg1 = c.arg1 := rfl
@[simp] theorem Context.setInput_arg2 : (c.setInput bs).arg2 = c.arg2 := rfl
@[simp] theorem Context.setInput_seed0 : (c.setInput bs).seed0 = c.seed0 := rfl
@[simp] theorem Context.setInput_seed1 : (c.setInput bs).seed1 = c.seed1 := rfl
@[simp] theorem Context.setInput_res0 : (c.setInput bs).res0 = c.res0 := rfl
@[simp] theorem Context.setInput_res1 : (c.setInput bs).res1 = c.res1 := rfl
@[simp] theorem Context.setInput_res2 : (c.setInput bs).res2 = c.res2 := rfl
@[simp] theorem Context.setInput_res3 : (c.setInput bs).res3 = c.res3 := rfl
@[simp] theorem Context.setInput_cells : (c.setInput bs).inBuf.cells = Memory.ofBytes bs := rfl
@[simp] theorem Context.setInput_written : (c.setInput bs).inBuf.written = true := rfl
@[simp] theorem Context.setInput_fault : (c.setInput bs).fault = c.fault := rfl
@[simp] theorem Context.setInput_faultInfo : (c.setInput bs).faultInfo = c.faultInfo := rfl
@[simp] theorem Context.setInput_cmdIndex : (c.setInput bs).cmdIndex = c.cmdIndex := rfl

/-- The register accessors after a write of RES0–RES3, an index step or a fault. -/
@[simp] theorem Context.setResults_opReg (r : OpReg) : (c.setResults d).opReg r = c.opReg r := by cases r <;> rfl
@[simp] theorem Context.advance_opReg (r : OpReg) : c.advance.opReg r = c.opReg r := by cases r <;> rfl
@[simp] theorem Context.raise_opReg (r : OpReg) : (c.raise code info).opReg r = c.opReg r := by cases r <;> rfl
@[simp] theorem Context.setInput_opReg (r : OpReg) : (c.setInput bs).opReg r = c.opReg r := by cases r <;> rfl
@[simp] theorem Context.advance_resReg (r : ResReg) : c.advance.resReg r = c.resReg r := by cases r <;> rfl
@[simp] theorem Context.raise_resReg (r : ResReg) : (c.raise code info).resReg r = c.resReg r := by cases r <;> rfl
@[simp] theorem Context.setInput_resReg (r : ResReg) : (c.setInput bs).resReg r = c.resReg r := by cases r <;> rfl

end Registers

section SetOpReg
variable (c : Context) (r : OpReg) (v : Word64)

/-- A write of one operand or seed register: it holds the value, and every other keeps its own. -/
@[simp] theorem Context.setOpReg_opReg (q : OpReg) :
    (c.setOpReg r v).opReg q = if q = r then Reg.ofWord v else c.opReg q := by
  cases r <;> cases q <;> rfl
@[simp] theorem Context.setOpReg_resReg (q : ResReg) : (c.setOpReg r v).resReg q = c.resReg q := by
  cases r <;> cases q <;> rfl
@[simp] theorem Context.setOpReg_res0 : (c.setOpReg r v).res0 = c.res0 := by cases r <;> rfl
@[simp] theorem Context.setOpReg_res1 : (c.setOpReg r v).res1 = c.res1 := by cases r <;> rfl
@[simp] theorem Context.setOpReg_res2 : (c.setOpReg r v).res2 = c.res2 := by cases r <;> rfl
@[simp] theorem Context.setOpReg_res3 : (c.setOpReg r v).res3 = c.res3 := by cases r <;> rfl
@[simp] theorem Context.setOpReg_inBuf : (c.setOpReg r v).inBuf = c.inBuf := by cases r <;> rfl
@[simp] theorem Context.setOpReg_fault : (c.setOpReg r v).fault = c.fault := by cases r <;> rfl
@[simp] theorem Context.setOpReg_faultInfo : (c.setOpReg r v).faultInfo = c.faultInfo := by cases r <;> rfl
@[simp] theorem Context.setOpReg_cmdIndex : (c.setOpReg r v).cmdIndex = c.cmdIndex := by cases r <;> rfl

end SetOpReg

section Whole
variable (s : State) (c : Context)

@[simp] theorem State.setCtx_ctxs : (s.setCtx c).ctxs = s.ctxs.set s.cur c := rfl
@[simp] theorem State.setCtx_sel : (s.setCtx c).sel = s.sel := rfl
@[simp] theorem State.setCtx_cap : (s.setCtx c).cap = s.cap := rfl
@[simp] theorem State.setCtx_cur : (s.setCtx c).cur = s.cur := rfl
@[simp] theorem State.setCtx_inputs : (s.setCtx c).inputs = s.inputs := rfl
@[simp] theorem State.setCtx_readOut : (s.setCtx c).readOut = s.readOut := rfl

@[simp] theorem State.initSel_ctxs : s.initSel.ctxs = s.ctxs := by unfold State.initSel; split <;> rfl
@[simp] theorem State.initSel_cap : s.initSel.cap = s.cap := by unfold State.initSel; split <;> rfl
@[simp] theorem State.initSel_cur : s.initSel.cur = s.cur := by unfold State.initSel; split <;> rfl
@[simp] theorem State.initSel_inputs : s.initSel.inputs = s.inputs := by unfold State.initSel; split <;> rfl
@[simp] theorem State.initSel_readOut : s.initSel.readOut = s.readOut := by unfold State.initSel; split <;> rfl

@[simp] theorem State.resetCore_ctxs : s.resetCore.ctxs = List.replicate s.ctxs.length Context.reset := rfl
@[simp] theorem State.resetCore_sel : s.resetCore.sel = .uninit := rfl
@[simp] theorem State.resetCore_cap : s.resetCore.cap = s.cap := rfl
@[simp] theorem State.resetCore_cur : s.resetCore.cur = s.cur := rfl
@[simp] theorem State.resetCore_inputs : s.resetCore.inputs = s.inputs := rfl
@[simp] theorem State.resetCore_readOut : s.resetCore.readOut = s.readOut := rfl

end Whole

end Sys2Proof.Machine
end

