-- ==== Sys2Proof/Laws/Memory.lean ====
section
/-! SUPPORT. The memory operations: loading a byte sequence keeps the canonical form, and reading gives back its bytes. -/
namespace Sys2Proof.Machine

@[simp] theorem Memory.length_ofBytesFrom (k : Nat) (bs : List Byte) : (Memory.ofBytesFrom k bs).length = bs.length := by
  induction bs generalizing k with
  | nil => rfl
  | cons b bs ih => simp [Memory.ofBytesFrom, ih]

@[simp] theorem Memory.length_ofBytes (bs : List Byte) : (Memory.ofBytes bs).length = bs.length :=
  Memory.length_ofBytesFrom 0 bs

theorem Memory.offsets_ofBytesFrom (k : Nat) (bs : List Byte) :
    (Memory.ofBytesFrom k bs).map Prod.fst = List.range' k bs.length := by
  induction bs generalizing k with
  | nil => rfl
  | cons b bs ih => simp [Memory.ofBytesFrom, ih, List.range'_succ]

/-- `LOADIN`'s memory is canonical when LEN can express its length. -/
theorem Memory.wf_ofBytes {bs : List Byte} (h : bs.length < 2 ^ 64) : Memory.wf (Memory.ofBytes bs) = true := by
  have hm : (Memory.ofBytes bs).map Prod.fst = List.range bs.length := by
    rw [List.range_eq_range']
    exact Memory.offsets_ofBytesFrom 0 bs
  simp only [Memory.wf, Memory.length_ofBytes, hm, decide_true, Bool.true_and, decide_eq_true_eq]
  exact h

/-- No buffer is canonical: the memory of `State.reset`. -/
theorem Memory.wf_reset : Memory.wf Context.reset.inBuf.cells = true := by decide

@[simp] theorem Memory.bytes_ofBytesFrom (k : Nat) (bs : List Byte) : Memory.bytes (Memory.ofBytesFrom k bs) = bs := by
  induction bs generalizing k with
  | nil => rfl
  | cons b bs ih => simpa [Memory.ofBytesFrom, Memory.bytes] using ih (k + 1)

@[simp] theorem Memory.bytes_ofBytes (bs : List Byte) : Memory.bytes (Memory.ofBytes bs) = bs :=
  Memory.bytes_ofBytesFrom 0 bs

theorem Memory.read_ofBytesFrom (k a : Nat) (bs : List Byte) :
    Memory.read (Memory.ofBytesFrom k bs) a = if k ≤ a then bs[a - k]? else none := by
  induction bs generalizing k with
  | nil => simp [Memory.ofBytesFrom, Memory.read]
  | cons b bs ih =>
    simp only [Memory.ofBytesFrom, Memory.read, ih]
    rcases Nat.lt_trichotomy k a with h | h | h
    · obtain ⟨j, rfl⟩ : ∃ j, a = k + 1 + j := ⟨a - (k + 1), by omega⟩
      have e : k + 1 + j - k = j + 1 := by omega
      simp [e, show k ≠ k + 1 + j by omega, show k ≤ k + 1 + j by omega]
    · simp [h]
    · simp [show k ≠ a by omega, show ¬ k + 1 ≤ a by omega, show ¬ k ≤ a by omega]

/-- Reading what was loaded: byte a of the sequence, and nothing outside it. -/
@[simp] theorem Memory.read_ofBytes (bs : List Byte) (a : Nat) : Memory.read (Memory.ofBytes bs) a = bs[a]? := by
  simp [Memory.ofBytes, Memory.read_ofBytesFrom]

@[simp] theorem Memory.seq_len (m : Memory) : (Memory.seq m).len = m.length := rfl

theorem Memory.seq_byte_ofBytes {bs : List Byte} {i : Nat} (h : i < bs.length) :
    (Memory.seq (Memory.ofBytes bs)).byte i = bs[i] := by
  simp [Memory.seq, h]

end Sys2Proof.Machine
end

