-- ==== Sys2Proof/Laws/Ops.lean ====
section
/-! SUPPORT. For each shared operation, one lemma that says everything it can do. -/
namespace Sys2Proof.Machine

theorem Context.faulted_eq_true {c : Context} : c.faulted = true ↔ c.fault ≠ faultNone := by
  simp [Context.faulted]

theorem Context.faulted_eq_false {c : Context} : c.faulted = false ↔ c.fault = faultNone := by
  simp [Context.faulted]

/-- The frame of a presented word, forwards: with the context there and no fault, the act happens. -/
theorem State.present_ready {s : State} {c : Context} (h : s.Ready c) (act : Context → State) :
    s.present act = .next (act c) := by
  simp [State.present, h.1, Context.faulted_eq_false.2 h.2]

/-- A faulted context takes no step. -/
theorem State.present_faulted {s : State} {c : Context} (h : s.ctx? = some c) (hf : c.fault ≠ faultNone)
    (act : Context → State) : s.present act = .next s := by
  simp [State.present, h, Context.faulted_eq_true.2 hf]

/-- Everything a presented word can come to. -/
theorem State.present_cases (s : State) (act : Context → State) :
    (s.ctx? = none ∧ s.present act = .fault .noSuchContext) ∨
    (∃ c, s.ctx? = some c ∧ c.fault ≠ faultNone ∧ s.present act = .next s) ∨
    (∃ c, s.Ready c ∧ s.present act = .next (act c)) := by
  cases h : s.ctx? with
  | none => exact .inl ⟨rfl, by simp [State.present, h]⟩
  | some c =>
    by_cases hf : c.fault = faultNone
    · exact .inr (.inr ⟨c, ⟨h, hf⟩, State.present_ready ⟨h, hf⟩ act⟩)
    · exact .inr (.inl ⟨c, rfl, hf, State.present_faulted h hf act⟩)

/-- If a presented word answers a next state: no step of a faulted context, or the act. -/
theorem State.present_next {s t : State} {act : Context → State} (h : s.present act = .next t) :
    (∃ c, s.ctx? = some c ∧ c.fault ≠ faultNone ∧ t = s) ∨ (∃ c, s.Ready c ∧ t = act c) := by
  rcases s.present_cases act with ⟨_, e⟩ | ⟨c, hc, hf, e⟩ | ⟨c, hr, e⟩ <;> rw [e] at h
  · cases h
  · cases h; exact .inl ⟨c, hc, hf, rfl⟩
  · cases h; exact .inr ⟨c, hr, rfl⟩

/-- No read is missing exactly when all are written. -/
theorem Context.firstUnwritten_eq_none {c : Context} {reads : List Source} :
    c.firstUnwritten reads = none ↔ ∀ r ∈ reads, c.isWritten r = true := by
  simp [Context.firstUnwritten]

/-- A missing read is one of the reads, and it is unwritten. -/
theorem Context.firstUnwritten_eq_some {c : Context} {reads : List Source} {r : Source}
    (h : c.firstUnwritten reads = some r) : r ∈ reads ∧ c.isWritten r = false := by
  refine ⟨List.mem_of_find?_eq_some h, ?_⟩
  simpa using List.find?_some h

/-- Everything the check of the reads can come to: the first unwritten one recorded, or the rule. -/
theorem State.checkReads_cases (s : State) (c : Context) (reads : List Source) (rule : Context → State) :
    (∃ r, c.firstUnwritten reads = some r ∧
      s.checkReads c reads rule = s.raise c .unwrittenRegister (BitVec.ofNat 64 r.id)) ∨
    ((∀ r ∈ reads, c.isWritten r = true) ∧ s.checkReads c reads rule = rule c) := by
  unfold State.checkReads
  cases hw : c.firstUnwritten reads with
  | none => exact .inr ⟨Context.firstUnwritten_eq_none.1 hw, rfl⟩
  | some r => exact .inl ⟨r, rfl, rfl⟩

/-- A legal command of a ready context whose reads are all written runs its rule. -/
theorem State.command_ready {s : State} {c : Context} {reads : List Source} (h : s.Ready c)
    (hw : ∀ r ∈ reads, c.isWritten r = true) (rule : Context → State) : s.command reads rule = .next (rule c) := by
  simp [State.command, State.present_ready h, State.checkReads, Context.firstUnwritten_eq_none.2 hw]

/-- A legal command of a ready context that misses a read records it and does nothing else. -/
theorem State.command_unwritten {s : State} {c : Context} {reads : List Source} {r : Source} (h : s.Ready c)
    (hw : c.firstUnwritten reads = some r) (rule : Context → State) :
    s.command reads rule = .next (s.raise c .unwrittenRegister (BitVec.ofNat 64 r.id)) := by
  simp [State.command, State.present_ready h, State.checkReads, hw]

/-- Everything a legal command can come to: no such context, no step, an unwritten read recorded, or its rule. -/
theorem State.command_cases (s : State) (reads : List Source) (rule : Context → State) :
    (s.ctx? = none ∧ s.command reads rule = .fault .noSuchContext) ∨
    (∃ c, s.ctx? = some c ∧ c.fault ≠ faultNone ∧ s.command reads rule = .next s) ∨
    (∃ c r, s.Ready c ∧ c.firstUnwritten reads = some r ∧
      s.command reads rule = .next (s.raise c .unwrittenRegister (BitVec.ofNat 64 r.id))) ∨
    (∃ c, s.Ready c ∧ (∀ r ∈ reads, c.isWritten r = true) ∧ s.command reads rule = .next (rule c)) := by
  rcases s.present_cases (fun c => s.checkReads c reads rule) with h | h | ⟨c, hr, _⟩
  · exact .inl h
  · exact .inr (.inl h)
  · rcases s.checkReads_cases c reads rule with ⟨r, hw, _⟩ | ⟨hw, _⟩
    · exact .inr (.inr (.inl ⟨c, r, hr, hw, State.command_unwritten hr hw rule⟩))
    · exact .inr (.inr (.inr ⟨c, hr, hw, State.command_ready hr hw rule⟩))

/-- A read at ARG0 either completes in bounds or records the offset. -/
theorem State.readAt_cases (s : State) (c : Context) (width : Nat) (rule : Nat → Digest) :
    (c.arg0.value.toNat + width ≤ c.len ∧ s.readAt c width rule = s.complete c (rule c.arg0.value.toNat)) ∨
    (c.len < c.arg0.value.toNat + width ∧ s.readAt c width rule = s.raise c .outOfBounds c.arg0.value) := by
  by_cases h : c.arg0.value.toNat + width ≤ c.len
  · exact .inl ⟨h, by simp [State.readAt, Context.inBounds, h]⟩
  · exact .inr ⟨by omega, by simp [State.readAt, Context.inBounds, h]⟩

/-- `raise` in the words of the claims. -/
theorem State.raise_eq_faultTaken (s : State) (c : Context) (code : FaultCode) (info : Word64) :
    s.raise c code info = s.faultTaken c code.code info := rfl

/-- `complete` in the words of the claims. -/
theorem State.complete_eq_done (s : State) (c : Context) (d : Digest) : s.complete c d = s.done c d := rfl

/-- The selector initialisation in the words of the claims. -/
theorem State.initSel_eq_selChosen (s : State) : s.initSel = s.selChosen := by
  unfold State.initSel State.selChosen
  cases s with
  | mk ctxs sel cap cur inputs readOut => cases sel <;> rfl

/-- `probe` always names a backend. -/
theorem probe_ne_uninit (cap : BitVec 2) : probe cap ≠ .uninit := by
  unfold probe
  split
  · decide
  · split <;> decide

/-- The selector initialisation leaves a backend chosen. -/
theorem State.initSel_sel_ne_uninit (s : State) : s.initSel.sel ≠ .uninit := by
  rw [State.initSel_eq_selChosen]
  unfold State.selChosen
  by_cases h : s.sel = .uninit
  · simpa [h] using probe_ne_uninit s.cap
  · simp [h]

/-- Looking up the executing context after it was replaced. -/
theorem State.ctx?_setCtx {s : State} {c : Context} (h : s.ctx? = some c) (c' : Context) :
    (s.setCtx c').ctx? = some c' := by
  have hlt : s.cur < s.ctxs.length := (List.getElem?_eq_some_iff.1 h).1
  simp [State.ctx?, hlt]

/-- A host action acts on the context it names, faulted or not. -/
theorem State.hostAct_some {s : State} {k : Nat} {c : Context} (h : s.ctxs[k]? = some c)
    (act : Context → Host.Outcome State Fault Refusal) : s.hostAct k act = act c := by
  simp [State.hostAct, h]

/-- A host action that answers a next state found its context. -/
theorem State.hostAct_next {s t : State} {k : Nat} {act : Context → Host.Outcome State Fault Refusal}
    (h : s.hostAct k act = .next t) : ∃ c, s.ctxs[k]? = some c ∧ act c = .next t := by
  unfold State.hostAct at h
  split at h
  · cases h
  · exact ⟨_, ‹_›, h⟩

end Sys2Proof.Machine
end

