-- ==== Sys2Proof/Laws/PerInstr.lean ====
section
/-! SUPPORT. A statement about every command as it is written: its word carries its opcode in OPC and 0 in RSV (spec
30_encoding R81, R82, R90), one lemma per constructor. -/
namespace Sys2Proof.Laws.OpcodeField

/-- OPC of the command's word is the command's opcode, and RSV is 0 (spec R81, R82). -/
def Statement (i : Instr) : Prop := (encode i).extractLsb' 0 8 = opcodeOf i ∧ (encode i).extractLsb' 19 13 = 0

theorem hash32 : Statement .hash32 := by unfold Statement; decide
theorem hash64 : Statement .hash64 := by unfold Statement; decide
theorem hash64Seed : Statement .hash64Seed := by unfold Statement; decide
theorem murmur128 : Statement .murmur128 := by unfold Statement; decide
theorem murmur128Seed : Statement .murmur128Seed := by unfold Statement; decide
theorem hash128 : Statement .hash128 := by unfold Statement; decide
theorem hash128Seed : Statement .hash128Seed := by unfold Statement; decide
theorem hash128Crc : Statement .hash128Crc := by unfold Statement; decide
theorem hash128CrcSeed : Statement .hash128CrcSeed := by unfold Statement; decide
theorem hash256Crc : Statement .hash256Crc := by unfold Statement; decide
theorem hash256CrcSeed : Statement .hash256CrcSeed := by unfold Statement; decide
theorem readle64 : Statement .readle64 := by unfold Statement; decide
theorem readle32 : Statement .readle32 := by unfold Statement; decide
theorem shiftmix : Statement .shiftmix := by unfold Statement; decide
theorem hashlen16 : Statement .hashlen16 := by unfold Statement; decide
theorem hashlen16m : Statement .hashlen16m := by unfold Statement; decide
theorem fmix32 : Statement .fmix32 := by unfold Statement; decide
theorem mur32 : Statement .mur32 := by unfold Statement; decide
theorem rotr64 (r : BitVec 6) : Statement (.rotr64 r) := by
  unfold Statement
  revert r
  decide
theorem rotr32 (r : BitVec 6) : Statement (.rotr32 r) := by
  unfold Statement
  revert r
  decide
theorem bswap64 : Statement .bswap64 := by unfold Statement; decide
theorem bswap32 : Statement .bswap32 := by unfold Statement; decide
theorem weakhash32 : Statement .weakhash32 := by unfold Statement; decide
theorem crc32c : Statement .crc32c := by unfold Statement; decide
theorem mov (dst : OpReg) (src : ResReg) : Statement (.mov dst src) := by
  unfold Statement
  cases dst <;> cases src <;> decide
theorem rdsel : Statement .rdsel := by unfold Statement; decide
theorem rdcap : Statement .rdcap := by unfold Statement; decide

end Sys2Proof.Laws.OpcodeField
end

