-- ==== Sys2Proof/Tests/Slice0.lean ====
section
/-! SUPPORT. Tests of the model: the ill-formed term, words written out bit by bit from spec 30_encoding R81–R90, one-step
tests with the values of spec 95_test_vectors, and for each statement with hypotheses a state that meets them. -/
namespace Sys2Proof.Tests
set_option Elab.async false
open Sys2Proof.Machine

/-! ## Helpers -/

/-- `SEQ(n)` (spec R91). -/
def seqBytes (n : Nat) : List Byte := (List.range n).map fun i => BitVec.ofNat 8 i

/-- `SEQ(n)` as an abstract byte sequence (spec R10). -/
def seqOf (n : Nat) : ByteSeq := { len := n, byte := fun i => BitVec.ofNat 8 i }

/-- The three bytes `123` (spec 95, section 1.1). -/
def oneTwoThree : List Byte := [0x31, 0x32, 0x33]

/-- The nine bytes `Hello CRC`. -/
def helloCrc : List Byte := [0x48, 0x65, 0x6C, 0x6C, 0x6F, 0x20, 0x43, 0x52, 0x43]

/-- The 43 bytes of `fox`. -/
def fox : List Byte :=
  [0x54, 0x68, 0x65, 0x20, 0x71, 0x75, 0x69, 0x63, 0x6B, 0x20, 0x62, 0x72, 0x6F, 0x77, 0x6E, 0x20, 0x66, 0x6F, 0x78, 0x20,
   0x6A, 0x75, 0x6D, 0x70, 0x73, 0x20, 0x6F, 0x76, 0x65, 0x72, 0x20, 0x74, 0x68, 0x65, 0x20, 0x6C, 0x61, 0x7A, 0x79, 0x20,
   0x64, 0x6F, 0x67]

/-- A context with ARG0–2, SEED0–1 and IN written, RES0–RES3 not. -/
def ctxOf (a0 a1 a2 s0 s1 : Word64) (bs : List Byte) : Context :=
  { Context.reset with
    arg0 := Reg.ofWord a0, arg1 := Reg.ofWord a1, arg2 := Reg.ofWord a2, seed0 := Reg.ofWord s0, seed1 := Reg.ofWord s1,
    inBuf := { cells := Memory.ofBytes bs, written := true } }

/-- A context with every register written. -/
def full (a0 a1 a2 s0 s1 : Word64) (bs : List Byte) : Context :=
  (ctxOf a0 a1 a2 s0 s1 bs).setResults { r0 := 10, r1 := 11, r2 := 12, r3 := 13 }

/-- One context, CAP = 0b01. -/
def stateOf (c : Context) (ls : List HostLine) : State :=
  { ctxs := [c], sel := .uninit, cap := 1#2, cur := 0, inputs := ls, readOut := none }

/-- Two contexts, CAP = 0b11 (spec 95, P7). -/
def stateOf2 (c d : Context) (ls : List HostLine) : State :=
  { ctxs := [c, d], sel := .uninit, cap := 3#2, cur := 0, inputs := ls, readOut := none }

/-- One step on one word in context 0. -/
def run (c : Context) (cw : Word32) : Host.Outcome State Fault Refusal := step (stateOf c [.command 0 cw])

/-- RES0–RES3 after a command that left no fault. -/
def results (o : Host.Outcome State Fault Refusal) : Option (List Word64) :=
  match o with
  | .next t =>
    match t.ctx? with
    | some c => if c.fault = 0#8 then some [c.res0.value, c.res1.value, c.res2.value, c.res3.value] else none
    | none => none
  | .fault _ => none
  | .refused _ => none

/-- FAULT, FAULT_INFO, the command index and the `written` bit of RES0 after a step. -/
def status (o : Host.Outcome State Fault Refusal) : Option (BitVec 8 × Word64 × Nat × Bool) :=
  match o with
  | .next t =>
    match t.ctx? with
    | some c => some (c.fault, c.faultInfo, c.cmdIndex, c.res0.written)
    | none => none
  | .fault _ => none
  | .refused _ => none

/-- SEL after a step. -/
def selAfter (o : Host.Outcome State Fault Refusal) : Option Selector :=
  match o with
  | .next t => some t.sel
  | .fault _ => none
  | .refused _ => none

/-! ## Well-formedness (spec R83, R87(d)) -/

theorem test_wellFormed_refuses_rotr32_by_32 : Instr.wellFormed (.rotr32 32) = false := by decide
theorem test_wellFormed_refuses_rotr32_by_63 : Instr.wellFormed (.rotr32 63) = false := by decide
theorem test_wellFormed_takes_rotr32_by_31 : Instr.wellFormed (.rotr32 31) = true := by decide
theorem test_wellFormed_takes_rotr64_by_63 : Instr.wellFormed (.rotr64 63) = true := by decide

/-! ## Decoding: each word is RSV, D, S, IMM, OPC from bit 31 down (spec R81, R86) -/

theorem test_decode_hash32 : decode 0b0000000000000_000_00_000000_00000001#32 = .ok .hash32 := by decide
theorem test_decode_hash64 : decode 0b0000000000000_000_00_000000_00000010#32 = .ok .hash64 := by decide
theorem test_decode_hash64Seed : decode 0b0000000000000_000_00_000000_00000011#32 = .ok .hash64Seed := by decide
theorem test_decode_murmur128 : decode 0b0000000000000_000_00_000000_00000100#32 = .ok .murmur128 := by decide
theorem test_decode_murmur128Seed : decode 0b0000000000000_000_00_000000_00000101#32 = .ok .murmur128Seed := by decide
theorem test_decode_hash128 : decode 0b0000000000000_000_00_000000_00000110#32 = .ok .hash128 := by decide
theorem test_decode_hash128Seed : decode 0b0000000000000_000_00_000000_00000111#32 = .ok .hash128Seed := by decide
theorem test_decode_hash128Crc : decode 0b0000000000000_000_00_000000_00001000#32 = .ok .hash128Crc := by decide
theorem test_decode_hash128CrcSeed : decode 0b0000000000000_000_00_000000_00001001#32 = .ok .hash128CrcSeed := by decide
theorem test_decode_hash256Crc : decode 0b0000000000000_000_00_000000_00001010#32 = .ok .hash256Crc := by decide
theorem test_decode_hash256CrcSeed : decode 0b0000000000000_000_00_000000_00001011#32 = .ok .hash256CrcSeed := by decide
theorem test_decode_readle64 : decode 0b0000000000000_000_00_000000_00010000#32 = .ok .readle64 := by decide
theorem test_decode_readle32 : decode 0b0000000000000_000_00_000000_00010001#32 = .ok .readle32 := by decide
theorem test_decode_shiftmix : decode 0b0000000000000_000_00_000000_00010010#32 = .ok .shiftmix := by decide
theorem test_decode_hashlen16 : decode 0b0000000000000_000_00_000000_00010011#32 = .ok .hashlen16 := by decide
theorem test_decode_hashlen16m : decode 0b0000000000000_000_00_000000_00010100#32 = .ok .hashlen16m := by decide
theorem test_decode_fmix32 : decode 0b0000000000000_000_00_000000_00010101#32 = .ok .fmix32 := by decide
theorem test_decode_mur32 : decode 0b0000000000000_000_00_000000_00010110#32 = .ok .mur32 := by decide
theorem test_decode_rotr64_37 : decode 0b0000000000000_000_00_100101_00010111#32 = .ok (.rotr64 37) := by decide
theorem test_decode_rotr64_63 : decode 0b0000000000000_000_00_111111_00010111#32 = .ok (.rotr64 63) := by decide
theorem test_decode_rotr32_19 : decode 0b0000000000000_000_00_010011_00011000#32 = .ok (.rotr32 19) := by decide
theorem test_decode_rotr32_31 : decode 0b0000000000000_000_00_011111_00011000#32 = .ok (.rotr32 31) := by decide
theorem test_decode_bswap64 : decode 0b0000000000000_000_00_000000_00011001#32 = .ok .bswap64 := by decide
theorem test_decode_bswap32 : decode 0b0000000000000_000_00_000000_00011010#32 = .ok .bswap32 := by decide
theorem test_decode_weakhash32 : decode 0b0000000000000_000_00_000000_00011011#32 = .ok .weakhash32 := by decide
theorem test_decode_crc32c : decode 0b0000000000000_000_00_000000_00011100#32 = .ok .crc32c := by decide
theorem test_decode_mov_arg2_res2 : decode 0b0000000000000_010_10_000000_00100000#32 = .ok (.mov .arg2 .res2) := by decide
theorem test_decode_mov_seed0_res1 : decode 0b0000000000000_011_01_000000_00100000#32 = .ok (.mov .seed0 .res1) := by
  decide
theorem test_decode_mov_seed1_res3 : decode 0b0000000000000_100_11_000000_00100000#32 = .ok (.mov .seed1 .res3) := by
  decide
theorem test_decode_rdsel : decode 0b0000000000000_000_00_000000_00100001#32 = .ok .rdsel := by decide
theorem test_decode_rdcap : decode 0b0000000000000_000_00_000000_00100010#32 = .ok .rdcap := by decide

/-! The illegal words of spec 95, section 2.1. -/

theorem test_illegal_opcode_00 : decode 0x00000000#32 = .error .reservedOpcode := by decide
theorem test_illegal_opcode_0c : decode 0x0000000C#32 = .error .reservedOpcode := by decide
theorem test_illegal_opcode_1d : decode 0x0000001D#32 = .error .reservedOpcode := by decide
theorem test_illegal_opcode_23 : decode 0x00000023#32 = .error .reservedOpcode := by decide
theorem test_illegal_opcode_ff : decode 0x000000FF#32 = .error .reservedOpcode := by decide
theorem test_illegal_rsv_19 : decode 0x00080002#32 = .error .reservedBits := by decide
theorem test_illegal_rsv_31 : decode 0x80000002#32 = .error .reservedBits := by decide
theorem test_illegal_mov_imm : decode 0x00000120#32 = .error .fieldOutsideFormat := by decide
theorem test_illegal_hash64_imm : decode 0x00000102#32 = .error .fieldOutsideFormat := by decide
theorem test_illegal_hash64_s : decode 0x00004002#32 = .error .fieldOutsideFormat := by decide
theorem test_illegal_rotr64_d : decode 0x00010117#32 = .error .fieldOutsideFormat := by decide
theorem test_illegal_rotr32_32 : decode 0x00002018#32 = .error .rotateTooLarge := by decide
theorem test_illegal_mov_d5 : decode 0x00050020#32 = .error .badDestination := by decide
theorem test_decodeTableWord_ignores_high_bits : decodeTableWord 32 0x100002517 = some (.rotr64 37) := by decide
theorem test_decodeTableWord_refuses_a_wider_word : decodeTableWord 64 0x100002517 = none := by decide

/-! ## One step of each command (values of spec 95, sections 1.1 and 2.2–2.8) -/

theorem test_hash32_seq4 : results (run (ctxOf 0 0 0 0 0 (seqBytes 4)) 0x01) = some [0x616e1132, 0, 0, 0] := by
  decide +kernel
theorem test_hash32_fox : results (run (ctxOf 0 0 0 0 0 fox) 0x01) = some [0xa339c810, 0, 0, 0] := by decide +kernel
theorem test_hash64_fox : results (run (ctxOf 0 0 0 0 0 fox) 0x02) = some [0xc268724928feca7d, 0, 0, 0] := by
  decide +kernel
theorem test_hash64_seq129 :
    results (run (ctxOf 0 0 0 0 0 (seqBytes 129)) 0x02) = some [0x46be8f236f918770, 0, 0, 0] := by decide +kernel
theorem test_hash64Seed_seq3 :
    results (run (ctxOf 0 0 0 1 0 (seqBytes 3)) 0x03) = some [0x82999d970ea9caf0, 0, 0, 0] := by decide +kernel
theorem test_hash64Seed_fox :
    results (run (ctxOf 0 0 0 0xc268724928feca7d 0 fox) 0x03) = some [0x6f51a5ef574a4553, 0, 0, 0] := by decide +kernel
theorem test_murmur128_123 :
    results (run (ctxOf 0 0 0 0 0 oneTwoThree) 0x04) = some [0x9e775dcae13b1141, 0x6efabd18231d8f3d, 0, 0] := by
  decide +kernel
theorem test_murmur128_seq33 :
    results (run (ctxOf 0 0 0 0 0 (seqBytes 33)) 0x04) = some [0x8f0bec640f56eadd, 0x22284f54ff570ab0, 0, 0] := by
  decide +kernel
theorem test_murmur128Seed_seq16 :
    results (run (ctxOf 0 0 0 1 2 (seqBytes 16)) 0x05) = some [0xd76fa5d8d82d3071, 0xfb3d700edcf0b977, 0, 0] := by
  decide +kernel
theorem test_murmur128Seed_seq20 :
    results (run (ctxOf 0 0 0 1 2 (seqBytes 20)) 0x05) = some [0x65756203860ed524, 0x7f6cfbc0e585e177, 0, 0] := by
  decide +kernel
theorem test_hash128_seq17 :
    results (run (ctxOf 0 0 0 0 0 (seqBytes 17)) 0x06) = some [0x65daaab406671434, 0x1133848ad55b7e28, 0, 0] := by
  decide +kernel
theorem test_hash128_seq144 :
    hash128 (seqOf 144) = (0x11a3eb8dc4c0134e, 0xcda5dffa39190336) := by
  decide +kernel
theorem test_hash128Seed_seq16 :
    results (run (ctxOf 0 0 0 1 2 (seqBytes 16)) 0x07) = some [0xd76fa5d8d82d3071, 0xfb3d700edcf0b977, 0, 0] := by
  decide +kernel
theorem test_hash128Seed_seq200 :
    hash128Seeded (seqOf 200) 1 2 = (0x344da4394d0a54e0, 0x7286172c3b54c51a) := by
  decide +kernel
theorem test_hash128Crc_empty :
    results (run (ctxOf 0 0 0 0 0 []) 0x08) = some [0x3df09dfc64c09a2b, 0x3cb540c392e51e29, 0, 0] := by decide +kernel
/-- SEQ(901), as a sequence. -/
theorem test_hash128Crc_seq901 :
    hash128Crc (seqOf 901) = (0xc7ae546b74ecb80b, 0x998624a2e408a73a) := by decide +kernel
/-- SEQ(900), as a sequence. -/
theorem test_hash128CrcSeed_seq900 :
    hash128CrcSeeded (seqOf 900) 1 2 = (0x10dcf9057045d047, 0x404cb1fc9964e24b) := by decide +kernel
/-- SEQ(901), as a sequence. -/
theorem test_hash128CrcSeed_seq901 :
    hash128CrcSeeded (seqOf 901) 1 2 = (0xb8cf5cef4b5f6978, 0xce8ae02573a44ec2) := by decide +kernel
theorem test_hash256Crc_hello :
    results (run (ctxOf 0 0 0 0 0 helloCrc) 0x0A) =
      some [0x988ece8e25ce0472, 0x7e18a4b6d72c9bce, 0x481922464e817f5a, 0xbc870341b4254799] := by decide +kernel
theorem test_hash256Crc_seq281 :
    hash256Crc (seqOf 281) =
      { r0 := 0x28317506910eed97, r1 := 0x2e4b4fd2b6268bd2, r2 := 0xabae6359406f1460, r3 := 0x5d4ee43e3490758f } := by decide +kernel
theorem test_hash256CrcSeed_hello_ignores_seed :
    results (run (ctxOf 0 0 0 0xffffffff00000000 0 helloCrc) 0x0B) =
      some [0x988ece8e25ce0472, 0x7e18a4b6d72c9bce, 0x481922464e817f5a, 0xbc870341b4254799] := by decide +kernel
theorem test_hash256CrcSeed_seq300 :
    hash256CrcSeeded (seqOf 300) 12345 =
      { r0 := 0xe9c02d2d9fd5e45d, r1 := 0xa15e380aa0c66249, r2 := 0x3c0057d92629f66b, r3 := 0xc6443338062d03ce } := by decide +kernel
theorem test_readle64_last_offset :
    results (run (ctxOf 2 0 0 0 0 (seqBytes 10)) 0x10) = some [0x0908070605040302, 0, 0, 0] := by decide +kernel
theorem test_readle64_out_of_bounds_does_not_wrap :
    status (run (ctxOf 0xfffffffffffffffc 0 0 0 0 (seqBytes 16)) 0x10) = some (3, 0xfffffffffffffffc, 0, false) := by
  decide +kernel
theorem test_readle32_unaligned :
    results (run (ctxOf 5 0 0 0 0 (seqBytes 16)) 0x11) = some [0x0000000008070605, 0, 0, 0] := by decide +kernel
theorem test_readle32_out_of_bounds : status (run (ctxOf 0 0 0 0 0 (seqBytes 3)) 0x11) = some (3, 0, 0, false) := by
  decide +kernel
theorem test_shiftmix_top_bit : results (run (ctxOf 0x8000000000000000 0 0 0 0 []) 0x12) =
    some [0x8000000000010000, 0, 0, 0] := by decide +kernel
theorem test_shiftmix_mixed : results (run (ctxOf 0x0123456789abcdef 0 0 0 0 []) 0x12) =
    some [0x0123456789abcfa9, 0, 0, 0] := by decide +kernel
theorem test_hashlen16_one_two : results (run (ctxOf 1 2 0 0 0 []) 0x13) = some [0x86668a560ec835a1, 0, 0, 0] := by
  decide +kernel
theorem test_hashlen16_k0_k1 :
    results (run (ctxOf 0xc3a5c85c97cb3127 0xb492b66fbe98f273 0 0 0 []) 0x13) = some [0x772f98f6979fd762, 0, 0, 0] := by
  decide +kernel
theorem test_hashlen16m_k2 :
    results (run (ctxOf 1 2 0x9ae16a3b2f90404f 0 0 []) 0x14) = some [0xb1bb418e84ddda0b, 0, 0, 0] := by decide +kernel
theorem test_hashlen16m_one : results (run (ctxOf 1 2 1 0 0 []) 0x14) = some [1, 0, 0, 0] := by decide +kernel
theorem test_fmix32_ignores_high_half :
    results (run (ctxOf 0xffffffff00000001 0 0 0 0 []) 0x15) = some [0x514e28b7, 0, 0, 0] := by decide +kernel
theorem test_fmix32_top_bit : results (run (ctxOf 0x80000000 0 0 0 0 []) 0x15) = some [0x6d3c65a0, 0, 0, 0] := by
  decide +kernel
theorem test_mur32_one_two : results (run (ctxOf 1 2 0 0 0 []) 0x16) = some [0x26d04576, 0, 0, 0] := by decide +kernel
theorem test_mur32_ones : results (run (ctxOf 0xffffffff 0xffffffff 0 0 0 []) 0x16) = some [0xb849f5ee, 0, 0, 0] := by
  decide +kernel
theorem test_rotr64_37 :
    results (run (ctxOf 0x0123456789abcdef 0 0 0 0 []) 0x2517) = some [0x3c4d5e6f78091a2b, 0, 0, 0] := by decide +kernel
theorem test_rotr64_0 :
    results (run (ctxOf 0x0123456789abcdef 0 0 0 0 []) 0x17) = some [0x0123456789abcdef, 0, 0, 0] := by decide +kernel
theorem test_rotr32_19 : results (run (ctxOf 0x12345678 0 0 0 0 []) 0x1318) = some [0x8acf0246, 0, 0, 0] := by
  decide +kernel
theorem test_rotr32_32_is_illegal : status (run (ctxOf 5 0 0 0 0 []) 0x2018) = some (1, 0x2018, 0, false) := by
  decide +kernel
theorem test_bswap64 : results (run (ctxOf 0x0102030405060708 0 0 0 0 []) 0x19) = some [0x0807060504030201, 0, 0, 0] := by
  decide +kernel
theorem test_bswap32 : results (run (ctxOf 0xaabbccdd01020304 0 0 0 0 []) 0x1A) = some [0x04030201, 0, 0, 0] := by
  decide +kernel
theorem test_weakhash32_last_offset :
    results (run (ctxOf 8 1 2 0 0 (seqBytes 40)) 0x1B) = some [0x6c6864605c585451, 0x6422fa20dfafde9d, 0, 0] := by
  decide +kernel
theorem test_weakhash32_out_of_bounds : status (run (ctxOf 9 1 2 0 0 (seqBytes 40)) 0x1B) = some (3, 9, 0, false) := by
  decide +kernel
theorem test_crc32c_value :
    results (run (ctxOf 0x12345678 0x0123456789abcdef 0 0 0 []) 0x1C) = some [0xa3d207be, 0, 0, 0] := by decide +kernel
theorem test_crc32c_ignores_high_half :
    results (run (ctxOf 0xffffffff00000000 1 0 0 0 []) 0x1C) = some [0x493c7d27, 0, 0, 0] := by decide +kernel
/-- Program P6, line 2: MOV leaves RES0–RES3 (spec R96, R143). -/
theorem test_mov_seed1_res1 :
    (match run (full 0 0 0 0 0 []) 0x44020 with
      | .next t => t.ctxs.map fun c => (c.seed1, c.seed0.value, c.res0.value, c.res1.value, c.cmdIndex)
      | _ => []) = [(Reg.ofWord 11, 0, 10, 11, 1)] := by decide +kernel
theorem test_mov_unwritten_source : status (run Context.reset 0x8020) = some (2, 10, 0, false) := by decide +kernel
theorem test_rdsel_after_reset :
    results (run Context.reset 0x21) = some [0, 0, 0, 0] ∧ selAfter (run Context.reset 0x21) = some .uninit := by
  decide +kernel
/-- Program P3, line 3. -/
theorem test_rdsel_x86 :
    results (step { stateOf Context.reset [.command 0 0x21] with sel := .x86 }) = some [2, 0, 0, 0] := by decide +kernel
theorem test_rdcap_x86_only : results (run Context.reset 0x22) = some [1, 0, 0, 0] := by decide +kernel

/-! ## Faults, the selector, host actions and reset (spec 95, sections 2.10, 2.11, 3) -/

theorem test_fault_input_unwritten : status (run Context.reset 0x01) = some (2, 16, 0, false) := by decide +kernel
theorem test_fault_lowest_id_first : status (run Context.reset 0x03) = some (2, 3, 0, false) := by decide +kernel
theorem test_fault_illegal_wins : status (run Context.reset 0x80000002) = some (1, 0x80000002, 0, false) := by
  decide +kernel
theorem test_fault_leaves_selector :
    selAfter (run Context.reset 0x1C) = some .uninit ∧ status (run Context.reset 0x1C) = some (2, 0, 0, false) := by
  decide +kernel
/-- Program P4, line 3: a faulted context takes no new fault. -/
theorem test_faulted_context_is_stuck :
    status (run { Context.reset with fault := 1, faultInfo := 0x2018, cmdIndex := 1 } 0x01) =
      some (1, 0x2018, 1, false) := by decide +kernel
theorem test_selector_x86_only : selAfter (run (ctxOf 0 1 0 0 0 []) 0x1C) = some .x86 := by decide +kernel
theorem test_selector_by_length :
    selAfter (run (ctxOf 0 0 0 0 0 (seqBytes 900)) 0x08) = some .uninit ∧
      selAfter (run (ctxOf 0 0 0 0 0 (seqBytes 901)) 0x08) = some .x86 := by decide +kernel
/-- Program P7, the first command. -/
theorem test_two_contexts_share_the_selector :
    selAfter (step (stateOf2 (ctxOf 0 0 0 0 0 helloCrc) (ctxOf 0 1 0 0 0 []) [.command 1 0x1C])) = some .x86 := by
  decide +kernel
theorem test_loadin :
    (match step (stateOf Context.reset [.loadIn 0 oneTwoThree]) with
      | .next t => t.ctxs.map fun c => (c.inBuf, c.len, c.cmdIndex)
      | _ => []) = [({ cells := [(0, 0x31), (1, 0x32), (2, 0x33)], written := true }, 3, 0)] := by decide +kernel
theorem test_set_in_a_faulted_context :
    (match step (stateOf { Context.reset with fault := 1 } [.set 0 .arg0 1]) with
      | .next t => t.ctxs.map fun c => (c.arg0, c.fault)
      | _ => []) = [({ value := 1, written := true }, 1)] := by decide +kernel
theorem test_read_unwritten_gives_no_value :
    (match step { stateOf Context.reset [.read 0 (.result .res0)] with readOut := some (.word 5) } with
      | .next t => t.readOut
      | _ => some (.word 6)) = none := by decide +kernel
theorem test_reset_line :
    (match step { stateOf (full 1 2 3 4 5 helloCrc) [.reset] with sel := .x86 } with
      | .next t => (t.sel, t.cap, t.ctxs.map fun c => (c.fault, c.res0.written, c.inBuf.written, c.cmdIndex))
      | _ => (.arm, 0, [])) = (.uninit, 1, [(0, false, false, 0)]) := by decide +kernel
theorem test_no_such_context : step (stateOf Context.reset [.command 1 0x21]) = .fault .noSuchContext := rfl
theorem test_first_step_after_reset :
    (match step (State.reset.withFetchWord 32 0x01) with
      | .next t => t.ctxs.head?.map fun c => (c.fault, c.faultInfo)
      | _ => none) = some (2, 16) := by decide

/-- `weakHash32(1, 2, 3, 4, 5, 6)` by hand (spec 95, section 2.2). -/
theorem test_weakHash32_by_hand : weakHash32 1 2 3 4 5 6 = (0xf, 0x800000b00006) := by decide +kernel

/-! ## Witnesses: each statement's hypotheses can be met together -/

theorem full_isWritten (a0 a1 a2 s0 s1 : Word64) (bs : List Byte) (r : Source) :
    (full a0 a1 a2 s0 s1 bs).isWritten r = true := by
  rcases r with r | r | _
  · cases r <;> rfl
  · cases r <;> rfl
  · rfl

theorem full_ready (a0 a1 a2 s0 s1 : Word64) (bs : List Byte) (ls : List HostLine) :
    (stateOf (full a0 a1 a2 s0 s1 bs) ls).Ready (full a0 a1 a2 s0 s1 bs) := ⟨rfl, rfl⟩

theorem full_supplied (a0 a1 a2 s0 s1 : Word64) (bs : List Byte) (i : Instr) :
    (full a0 a1 a2 s0 s1 bs).Supplied i := fun r _ => full_isWritten a0 a1 a2 s0 s1 bs r

theorem full_len (a0 a1 a2 s0 s1 : Word64) (bs : List Byte) : (full a0 a1 a2 s0 s1 bs).len = bs.length :=
  Memory.length_ofBytes bs

/-- A context that recorded an illegal word (spec 95, P4). -/
def stuckCtx : Context := { full 1 0 0 0 0 [] with fault := 1#8, faultInfo := 0x2018 }

/-- A context that meets `Context.Inv`. -/
theorem inv_full (a0 a1 a2 s0 s1 : Word64) (bs : List Byte) (h : bs.length < 2 ^ 64) : (full a0 a1 a2 s0 s1 bs).Inv where
  input := Memory.wf_ofBytes h
  results := ⟨rfl, rfl, rfl⟩
  code := by show (0#8).toNat ≤ 3; decide
  noneInfo _ := rfl
  illegalInfo h := absurd h (by show ¬ (0#8 = 1#8); decide)
  unwrittenInfo h := absurd h (by show ¬ (0#8 = 2#8); decide)

theorem test_witness_DecodeOfEncode : Instr.wellFormed (.rotr32 31) = true ∧ Instr.wellFormed (.mov .seed1 .res3) = true := by
  decide
theorem test_witness_EncodeOfDecode : decode 0x0004C020#32 = .ok (.mov .seed1 .res3) := by decide

theorem test_witness_IllegalWord_a : IllegalWord 0x0000000F#32 := by unfold IllegalWord; decide
theorem test_witness_IllegalWord_b : IllegalWord 0x00080002#32 := by unfold IllegalWord; decide
theorem test_witness_IllegalWord_c : IllegalWord 0x00010117#32 ∧ IllegalWord 0x00000120#32 ∧ IllegalWord 0x00004002#32 := by
  refine ⟨?_, ?_, ?_⟩ <;> unfold IllegalWord <;> decide
theorem test_witness_IllegalWord_d : IllegalWord 0x00002018#32 := by unfold IllegalWord; decide
theorem test_witness_IllegalWord_e : IllegalWord 0x00050020#32 := by unfold IllegalWord; decide
theorem test_witness_IllegalWord_not : ¬ IllegalWord 0x00001F18#32 ∧ ¬ IllegalWord 0x00000022#32 := by
  refine ⟨?_, ?_⟩ <;> unfold IllegalWord <;> decide
theorem test_witness_IllegalWordsRaiseIllegalCommand :
    (stateOf Context.reset [.command 0 0x2018]).ctxs[0]? = some Context.reset ∧ Context.reset.fault = faultNone ∧
      IllegalWord 0x00002018#32 := ⟨rfl, rfl, test_witness_IllegalWord_d⟩

theorem test_witness_StepRunsDecodedCommand :
    (stateOf Context.reset [.command 0 0x21]).inputs = .command 0 0x21 :: [] ∧ decode 0x21#32 = .ok .rdsel ∧
      decodeTableWord 32 0x4C020 = some (.mov .seed1 .res3) := ⟨rfl, by decide, by decide⟩
theorem test_witness_CoreWaitsWithoutLine : (stateOf Context.reset []).inputs = [] := rfl
theorem test_witness_ResetState :
    Instr.wellFormed .hash64Seed = true ∧ (readsOf .hash64Seed).head? = some (.op .seed0) ∧
      (readsOf (.mov .arg0 .res2)).head? = some (.res .res2) := ⟨rfl, rfl, rfl⟩
theorem test_witness_ResetLineResetsEveryContext :
    (stateOf (full 1 2 3 4 5 helloCrc) [.reset]).inputs = .reset :: [] := rfl

theorem test_witness_StepKeepsStateInv :
    (stateOf (full 1 2 3 4 5 helloCrc) [.command 0 0x1C]).Inv ∧
      ∃ t, step (stateOf (full 1 2 3 4 5 helloCrc) [.command 0 0x1C]) = .next t :=
  ⟨⟨by show 0 < 1; decide, fun c hc => by
      have h : c = full 1 2 3 4 5 helloCrc := by simpa [stateOf] using hc
      exact h ▸ inv_full 1 2 3 4 5 helloCrc (by decide)⟩, _, rfl⟩

theorem test_witness_CommandFrame_mov :
    ∃ t, exec (.mov .arg1 .res3) (stateOf (full 1 2 3 4 5 helloCrc) []) = .next t ∧
      usesCrc (.mov .arg1 .res3) (full 1 2 3 4 5 helloCrc) = false ∧
      t.ctxs[0]? = some ((full 1 2 3 4 5 helloCrc).setOpReg .arg1 13).advance := ⟨_, rfl, rfl, rfl⟩
theorem test_witness_CommandFrame_read :
    ∃ t, exec .readle64 (stateOf (full 1 2 3 4 5 helloCrc) []) = .next t ∧
      usesCrc .readle64 (full 1 2 3 4 5 helloCrc) = false ∧ ∀ dst src, Instr.readle64 ≠ .mov dst src :=
  ⟨_, rfl, rfl, nofun⟩
theorem test_witness_CommandFrame_long :
    usesCrc .hash128Crc (full 1 2 3 4 5 (seqBytes 900)) = false ∧
      usesCrc .hash128Crc (full 1 2 3 4 5 (seqBytes 901)) = true := by decide +kernel

theorem test_witness_ContextWritesStayHome :
    HostLine.ctx? (.command 1 0x1C) = some 1 ∧
      ∃ t, step (stateOf2 (full 0 0 0 0 0 []) (full 0 1 0 0 0 []) [.command 1 0x1C]) = .next t := ⟨rfl, _, rfl⟩
theorem test_witness_ContextReadsStayHome :
    (stateOf2 Context.reset (full 0 1 0 0 0 []) [.command 1 0x1C]).ctxs[1]? =
        (stateOf2 stuckCtx (full 0 1 0 0 0 []) [.command 1 0x1C]).ctxs[1]? ∧
      ∃ t, step (stateOf2 stuckCtx (full 0 1 0 0 0 []) [.command 1 0x1C]) = .next t := ⟨rfl, _, rfl⟩
theorem test_witness_CapAndContextCountConstant : ∃ t, step (stateOf stuckCtx [.reset]) = .next t := ⟨_, rfl⟩
theorem test_witness_WrittenBitsOnlySet :
    HostLine.set 0 .arg0 1 ≠ .reset ∧ (full 1 2 3 4 5 []).isWritten .input = true ∧
      ∃ t, step (stateOf (full 1 2 3 4 5 []) [.set 0 .arg0 1]) = .next t := ⟨by decide, rfl, _, rfl⟩

theorem test_witness_UnwrittenReadFaults_first :
    (stateOf Context.reset []).Ready Context.reset ∧ Source.op .seed0 ∈ readsOf .hash64Seed ∧
      Context.reset.isWritten (.op .seed0) = false ∧
      ∀ q ∈ readsOf .hash64Seed, q.id < (Source.op .seed0).id → Context.reset.isWritten q = true :=
  ⟨⟨rfl, rfl⟩, by decide, rfl, by decide⟩
theorem test_witness_UnwrittenReadFaults_last :
    Source.input ∈ readsOf .murmur128Seed ∧
      Context.isWritten { full 1 2 3 4 5 [] with inBuf := InBuf.reset } .input = false ∧
      ∀ q ∈ readsOf .murmur128Seed, q.id < Source.input.id →
        Context.isWritten { full 1 2 3 4 5 [] with inBuf := InBuf.reset } q = true := by decide

theorem test_witness_OutOfBoundsReadFaults :
    readWidth .readle64 = some 8 ∧ (full 1 0 0 0 0 (seqBytes 8)).len < (full 1 0 0 0 0 (seqBytes 8)).arg0.value.toNat + 8 ∧
      readWidth .readle32 = some 4 ∧ (full 0 0 0 0 0 (seqBytes 3)).len < (full 0 0 0 0 0 (seqBytes 3)).arg0.value.toNat + 4 ∧
      readWidth .weakhash32 = some 32 ∧
      (full 9 0 0 0 0 (seqBytes 40)).len < (full 9 0 0 0 0 (seqBytes 40)).arg0.value.toNat + 32 := by decide
theorem test_witness_OutOfBoundsReadFaults_other :
    readWidth .shiftmix = none ∧
      ∃ t c', exec .shiftmix (stateOf (full 1 0 0 0 0 []) []) = .next t ∧ t.ctx? = some c' := ⟨rfl, _, _, rfl, rfl⟩

theorem test_witness_FaultIsPrecise :
    ∃ t c', exec .hash64 (stateOf Context.reset []) = .next t ∧ t.ctx? = some c' ∧ c'.fault ≠ faultNone :=
  ⟨_, _, rfl, rfl, by decide⟩
theorem test_witness_FaultedContextIsStuck :
    (stateOf stuckCtx [.command 0 0x0C]).ctx? = some stuckCtx ∧
      (stateOf stuckCtx [.command 0 0x0C]).ctxs[0]? = some stuckCtx ∧ stuckCtx.fault ≠ faultNone ∧
      ∃ t, step (stateOf stuckCtx [.loadIn 0 fox]) = .next t := ⟨rfl, rfl, by decide, _, rfl⟩
theorem test_witness_ExecNeverRefuses : ∃ t, exec .rdsel (stateOf Context.reset []) = .next t := ⟨_, rfl⟩

theorem test_witness_PrimitivesComplete :
    (stateOf (full 1 2 3 4 5 []) []).Ready (full 1 2 3 4 5 []) ∧ (∀ i, (full 1 2 3 4 5 []).Supplied i) ∧
      (31#6).toNat < 32 ∧ (63#6).toNat ≤ 63 := ⟨⟨rfl, rfl⟩, full_supplied 1 2 3 4 5 [], by decide, by decide⟩
theorem test_witness_BoundedReadsComplete :
    (full 0 0 0 0 0 (seqBytes 8)).arg0.value.toNat + 8 ≤ (full 0 0 0 0 0 (seqBytes 8)).len ∧
      (full 0 0 0 0 0 (seqBytes 4)).arg0.value.toNat + 4 ≤ (full 0 0 0 0 0 (seqBytes 4)).len ∧
      (full 8 0 0 0 0 (seqBytes 40)).arg0.value.toNat + 32 ≤ (full 8 0 0 0 0 (seqBytes 40)).len := by decide
theorem test_witness_HashCommandsComplete :
    (stateOf (full 1 2 3 4 5 []) []).Ready (full 1 2 3 4 5 []) ∧ ∀ i, (full 1 2 3 4 5 []).Supplied i :=
  ⟨⟨rfl, rfl⟩, full_supplied 1 2 3 4 5 []⟩
theorem test_witness_CrcCommandsComplete :
    (stateOf (full 1 2 3 4 5 (seqBytes 901)) []).Ready (full 1 2 3 4 5 (seqBytes 901)) ∧
      (∀ i, (full 1 2 3 4 5 (seqBytes 901)).Supplied i) ∧ 900 < (full 1 2 3 4 5 (seqBytes 901)).len ∧
      ¬ 900 < (full 1 2 3 4 5 (seqBytes 900)).len :=
  ⟨⟨rfl, rfl⟩, full_supplied 1 2 3 4 5 _, by decide +kernel, by decide +kernel⟩
theorem test_witness_MovCopiesResult :
    (stateOf (full 1 2 3 4 5 []) []).Ready (full 1 2 3 4 5 []) ∧ (full 1 2 3 4 5 []).Supplied (.mov .seed1 .res3) :=
  ⟨⟨rfl, rfl⟩, full_supplied 1 2 3 4 5 [] _⟩
theorem test_witness_SelectorAndCapabilityReads :
    (stateOf Context.reset []).Ready Context.reset ∧ (stateOf Context.reset []).sel = .uninit := ⟨⟨rfl, rfl⟩, rfl⟩
theorem test_witness_SuppliedCommandsComplete :
    Instr.wellFormed .weakhash32 = true ∧ (full 8 1 2 0 0 (seqBytes 40)).Supplied .weakhash32 ∧
      (full 8 1 2 0 0 (seqBytes 40)).InRange .weakhash32 :=
  ⟨rfl, full_supplied 8 1 2 0 0 _ _, fun w h => by cases h; decide⟩
theorem test_witness_SuccessWritesResults :
    (∃ t c', exec .hash64 (stateOf (full 1 2 3 4 5 []) []) = .next t ∧ t.ctx? = some c' ∧ c'.fault = faultNone) ∧
      ∃ t c', exec (.mov .arg0 .res0) (stateOf (full 1 2 3 4 5 []) []) = .next t ∧ t.ctx? = some c' ∧
        c'.fault = faultNone := ⟨⟨_, _, rfl, rfl, rfl⟩, _, _, rfl, rfl, rfl⟩
theorem test_witness_EqualCommands :
    (full 0 0 0 0 0 (seqBytes 900)).len ≤ 900 ∧ (full 0 0 0 0 0 (seqBytes 127)).len < 128 ∧
      900 < (full 0 0 0 0 0 (seqBytes 901)).len ∧
      (full 1 2 3 0 0 []).seed0 = { value := 0, written := true } ∧
      (full 1 2 3 0 0 []).seed1 = { value := 0, written := true } ∧
      (full 1 2 3 0xffffffff00000000 0 []).seed0.value.setWidth 32 = 0#32 := by decide +kernel

theorem test_witness_SelectorWrittenOnce :
    HostLine.command 0 0x1C ≠ .reset ∧ (∃ t, step (stateOf (full 0 1 0 0 0 []) [.command 0 0x1C]) = .next t) ∧
      (stateOf (full 0 1 0 0 0 []) []).sel = .uninit ∧
      ∃ t, step { stateOf (full 0 1 0 0 0 []) [.command 0 0x1C] with sel := .arm } = .next t :=
  ⟨by decide, ⟨_, rfl⟩, rfl, _, rfl⟩
theorem test_witness_SelectorChosenByCrcCommands :
    (∃ t c', exec .crc32c (stateOf (full 0 1 0 0 0 []) []) = .next t ∧ t.ctx? = some c' ∧ c'.fault = faultNone) ∧
      ∃ t c', exec .crc32c (stateOf Context.reset []) = .next t ∧ t.ctx? = some c' ∧ c'.fault ≠ faultNone :=
  ⟨⟨_, _, rfl, rfl, rfl⟩, _, _, rfl, rfl, by decide⟩
theorem test_witness_ProbeChoosesBackend :
    (3#2).getLsbD 0 = true ∧ (2#2).getLsbD 0 = false ∧ (2#2).getLsbD 1 = true ∧ (0#2).getLsbD 0 = false ∧
      (0#2).getLsbD 1 = false := by decide
theorem test_witness_BackendNeverChangesResults :
    Instr.crc32c ≠ .rdsel ∧ Instr.crc32c ≠ .rdcap ∧ ∃ t, exec .crc32c (stateOf (full 0 1 0 0 0 []) []) = .next t :=
  ⟨nofun, nofun, _, rfl⟩
theorem test_witness_ContextsCommute :
    ∃ t1 t12, (stateOf2 (full 0 0 0 0 0 helloCrc) (full 0 1 0 0 0 []) []).runAs 0 .hash256Crc = .next t1 ∧
      t1.runAs 1 .crc32c = .next t12 := ⟨_, _, rfl, rfl⟩

theorem test_witness_ResultsDependOnReadsOnly :
    (stateOf (full 1 2 3 4 5 []) []).Ready (full 1 2 3 4 5 []) ∧
      (stateOf (full 1 9 9 9 9 fox) []).Ready (full 1 9 9 9 9 fox) ∧ (full 1 2 3 4 5 []).Supplied .shiftmix ∧
      (full 1 9 9 9 9 fox).Supplied .shiftmix ∧
      ∀ r ∈ readsOf .shiftmix, (full 1 2 3 4 5 []).SameAt (full 1 9 9 9 9 fox) r := by
  refine ⟨⟨rfl, rfl⟩, ⟨rfl, rfl⟩, full_supplied 1 2 3 4 5 [] _, full_supplied 1 9 9 9 9 fox _, ?_⟩
  intro r hr
  have h : r = .op .arg0 := by simpa [readsOf] using hr
  subst h
  rfl

/-- Contexts that differ in the unwritten ARG2 and IN only. -/
theorem test_witness_UnwrittenValuesNeverMatter :
    (stateOf Context.reset [.command 0 0x14]).Agrees
      (stateOf { Context.reset with arg2 := { value := 7, written := false }
                                    inBuf := { cells := Memory.ofBytes fox, written := false } } [.command 0 0x14]) where
  ctxs := by
    refine .cons ⟨?_, ?_, ⟨rfl, nofun⟩, rfl, rfl, rfl⟩ .nil
    · intro r
      cases r <;> exact ⟨rfl, nofun⟩
    · intro r
      cases r <;> exact ⟨rfl, nofun⟩
  sel := rfl
  cap := rfl
  cur := rfl
  inputs := rfl
  readOut := rfl

theorem test_witness_DigestsReadOnlyInsideInput :
    ByteSeq.AgreeInside { len := 1, byte := fun i => if i = 0 then 7 else 8 } { len := 1, byte := fun _ => 7 } :=
  ⟨rfl, fun i h => by
    have h0 : i = 0 := Nat.lt_one_iff.1 h
    subst h0
    rfl⟩

theorem test_witness_SeedBitsIgnored256 :
    (full 0 0 0 0 0 (seqBytes 239)).inBuf.written = true ∧ (full 0 0 0 0 0 (seqBytes 239)).len < 240 ∧
      ¬ (full 0 0 0 0 0 (seqBytes 240)).len < 240 ∧
      (0xffffffff00000001#64).setWidth 32 = (1#64).setWidth 32 := by decide +kernel

theorem test_witness_LoadInSetsInput :
    (stateOf stuckCtx [.loadIn 0 fox]).ctxs[0]? = some stuckCtx ∧ fox.length < 2 ^ 64 ∧ ([] : List Byte).length < 2 ^ 64 ∧
      (List.replicate (2 ^ 64 - 1) 0#8).length < 2 ^ 64 ∧ 2 ^ 64 ≤ (List.replicate (2 ^ 64) 0#8).length :=
  ⟨rfl, by decide, by decide, by rw [List.length_replicate]; omega, by rw [List.length_replicate]⟩
theorem test_witness_SetWritesRegister :
    (stateOf stuckCtx [.set 0 .seed1 7]).inputs = .set 0 .seed1 7 :: [] ∧
      (stateOf stuckCtx [.set 0 .seed1 7]).ctxs[0]? = some stuckCtx := ⟨rfl, rfl⟩
theorem test_witness_ReadReturnsRegister :
    (stateOf stuckCtx [.read 0 .len]).inputs = .read 0 .len :: [] ∧
      (stateOf stuckCtx [.read 0 .len]).ctxs[0]? = some stuckCtx ∧ stuckCtx.inBuf.written = true ∧
      Context.reset.inBuf.written = false ∧ (stuckCtx.opReg .arg0).written = true ∧
      (Context.reset.resReg .res3).written = false := ⟨rfl, rfl, rfl, rfl, rfl, rfl⟩

theorem test_witness_RotationsMoveEveryBit : (63 ≤ 63 ∧ 63 < 64) ∧ 31 ≤ 31 ∧ 31 < 32 := by decide
theorem test_witness_ByteSwapsReverseBytes : (7 < 8) ∧ 3 < 4 := by decide
theorem test_witness_ShiftMixCorners : (47 ≤ 47 ∧ 47 ≤ 63) ∧ 47 ≤ 63 ∧ 63 ≤ 63 := by decide
theorem test_witness_Crc32cStep : (0xffffffff00000000#64).setWidth 32 = (0#64).setWidth 32 := by decide
theorem test_witness_ShortInputsArePadded : 240 ≤ (seqBytes 240).length ∧ (seqBytes 239).length < 240 := by
  decide +kernel
/-- A sequence of `n` zero bytes at each boundary length of spec R220 and R226. -/
theorem test_witness_Hash128Boundaries :
    (∀ n ∈ [127, 128, 15, 16, 143, 144], ∃ S : ByteSeq, S.len = n) ∧
      (127 < 128 ∧ 128 ≤ 128 ∧ 15 < 16 ∧ 16 ≤ 16 ∧ 143 < 144 ∧ 144 ≤ 144) :=
  ⟨fun n _ => ⟨{ len := n, byte := fun _ => 0 }, rfl⟩, by decide⟩
/-- Sequences at each boundary length of spec R150. -/
theorem test_witness_Hash32Buckets :
    ∀ n ∈ [0, 4, 5, 12, 13, 24, 25], ∃ S : ByteSeq, S.len = n ∧ (S.len ≤ 4 ∨ 4 < S.len ∧ S.len ≤ 12 ∨
      12 < S.len ∧ S.len ≤ 24 ∨ 24 < S.len) :=
  fun n _ => ⟨{ len := n, byte := fun _ => 0 }, rfl, by show n ≤ 4 ∨ 4 < n ∧ n ≤ 12 ∨ 12 < n ∧ n ≤ 24 ∨ 24 < n; omega⟩
theorem test_witness_Hash32ShortInputs : (Memory.seq (Memory.ofBytes [0x80, 0x7f, 0xff, 0])).len ≤ 4 := by decide
/-- Sequences at each boundary length of spec R170. -/
theorem test_witness_Hash64Buckets :
    ∀ n ∈ [0, 16, 17, 32, 33, 64, 65], ∃ S : ByteSeq, S.len = n ∧ (S.len ≤ 16 ∨ 16 < S.len ∧ S.len ≤ 32 ∨
      32 < S.len ∧ S.len ≤ 64 ∨ 64 < S.len) :=
  fun n _ =>
    ⟨{ len := n, byte := fun _ => 0 }, rfl, by show n ≤ 16 ∨ 16 < n ∧ n ≤ 32 ∨ 32 < n ∧ n ≤ 64 ∨ 64 < n; omega⟩
/-- Sequences at each boundary length of spec R171. -/
theorem test_witness_Hash64ShortInputs :
    ∀ n ∈ [0, 1, 3, 4, 7, 8, 16], ∃ (S : ByteSeq) (m : Word64), S.len = n ∧
      m = 0x9ae16a3b2f90404f#64 + 2 * BitVec.ofNat 64 S.len :=
  fun n _ => ⟨{ len := n, byte := fun _ => 0 }, _, rfl, rfl⟩
theorem test_witness_MurmurShortInputs :
    ∀ n ∈ [0, 7, 8, 16], ∃ (S : ByteSeq) (a c d b : Word64), S.len = n ∧
      a = shiftMix (1 * 0xb492b66fbe98f273#64) * 0xb492b66fbe98f273#64 ∧ c = 2 * 0xb492b66fbe98f273#64 + hash64 S ∧
      d = shiftMix (a + if 8 ≤ S.len then S.rd64 0 else c) ∧ b = hashLen16 d 2 :=
  fun n _ => ⟨{ len := n, byte := fun _ => 0 }, _, _, _, _, rfl, rfl, rfl, rfl, rfl⟩
theorem test_witness_CrcSeededRecombination :
    (seqOf 900).len ≤ 900 ∧ 900 < (seqOf 901).len ∧
      ∃ u v : Word64, u = 2 + (hash256Crc (seqOf 901)).r0 ∧ v = 1 + (hash256Crc (seqOf 901)).r1 :=
  ⟨by decide, by decide, _, _, rfl, rfl⟩
theorem test_witness_CountedLoopsFollowTheRules :
    128 ≤ (Memory.seq (Memory.ofBytes (seqBytes 128))).len ∧ 240 ≤ (Memory.seq (Memory.ofBytes (seqBytes 240))).len := by
  decide +kernel
theorem test_witness_SourceVectors :
    (stateOf (full 0 0 0 0 0 fox) []).Ready (full 0 0 0 0 0 fox) ∧ (full 0 0 0 0 0 fox).inBuf.written = true ∧
      (full 0 0 0 0 0 fox).inBuf.cells = Memory.ofBytes fox ∧
      (full 0 0 0 0 0 []).inBuf.cells = Memory.ofBytes [] ∧
      (full 0 0 0 0 0 oneTwoThree).inBuf.cells = Memory.ofBytes oneTwoThree ∧
      (full 0 0 0 0 0 helloCrc).inBuf.cells = Memory.ofBytes helloCrc := ⟨⟨rfl, rfl⟩, rfl, rfl, rfl, rfl, rfl⟩

end Sys2Proof.Tests
end

/-! SUPPORT. What a command comes to, said once for all 27: the change it makes to its own context as plain data
(`Effect`), read off the rules of spec 40–45, and the equation that ties it to `exec`. -/
section
namespace Sys2Proof.Machine

/-- What the rule of a command does to its context: four result words (spec R96), a moved word (R143) or a fault
(R295). -/
inductive Effect where
  | digest (d : Digest)
  | move (dst : OpReg) (v : Word64)
  | fault (code : FaultCode) (info : Word64)

/-- The context after an effect; only a fault leaves the command index where it was (spec R95, R295). -/
def Context.apply (c : Context) : Effect → Context
  | .digest d => (c.setResults d).advance
  | .move dst v => (c.setOpReg dst v).advance
  | .fault code info => c.raise code info

/-- The effect of a primitive command that reads `width` bytes at the offset in ARG0 (spec R60, R293). -/
def Context.readEffect (c : Context) (width : Nat) (rule : Nat → Digest) : Effect :=
  if c.inBounds c.arg0.value width then .digest (rule c.arg0.value.toNat) else .fault .outOfBounds c.arg0.value

/-- The effect of a command whose reads are all written. SEL and CAP are arguments for RDSEL and RDCAP only. -/
def effectOf (sel : Selector) (cap : BitVec 2) (c : Context) : Instr → Effect
  | .hash32 => .digest (.word (hash32 c.input).zext64)
  | .hash64 => .digest (.word (hash64 c.input))
  | .hash64Seed => .digest (.word (hash64Seeded c.input c.seed0.value))
  | .murmur128 => .digest (.pair (cityMurmur c.input 0 0))
  | .murmur128Seed => .digest (.pair (cityMurmur c.input c.seed0.value c.seed1.value))
  | .hash128 => .digest (.pair (hash128 c.input))
  | .hash128Seed => .digest (.pair (hash128Seeded c.input c.seed0.value c.seed1.value))
  | .hash128Crc => .digest (.pair (hash128Crc c.input))
  | .hash128CrcSeed => .digest (.pair (hash128CrcSeeded c.input c.seed0.value c.seed1.value))
  | .hash256Crc => .digest (hash256Crc c.input)
  | .hash256CrcSeed => .digest (hash256CrcSeeded c.input c.seed0.value.low32)
  | .readle64 => c.readEffect 8 fun o => .word (c.input.rd64 o)
  | .readle32 => c.readEffect 4 fun o => .word (c.input.rd32 o).zext64
  | .shiftmix => .digest (.word (shiftMix c.arg0.value))
  | .hashlen16 => .digest (.word (hashLen16 c.arg0.value c.arg1.value))
  | .hashlen16m => .digest (.word (hashLen16Mul c.arg0.value c.arg1.value c.arg2.value))
  | .fmix32 => .digest (.word (fmix32 c.arg0.value.low32).zext64)
  | .mur32 => .digest (.word (mur32 c.arg0.value.low32 c.arg1.value.low32).zext64)
  | .rotr64 r => .digest (.word (rotr64 c.arg0.value r.toNat))
  | .rotr32 r =>
    if r.toNat < 32 then .digest (.word (rotr32 c.arg0.value.low32 r.toNat).zext64)
    else .fault .illegalCommand (encode (.rotr32 r)).zext64
  | .bswap64 => .digest (.word (bswap64 c.arg0.value))
  | .bswap32 => .digest (.word (bswap32 c.arg0.value.low32).zext64)
  | .weakhash32 => c.readEffect 32 fun o => .pair (weakHash32At c.input o c.arg1.value c.arg2.value)
  | .crc32c => .digest (.word (crc32cU64 c.arg0.value c.arg1.value))
  | .mov dst src => .move dst (c.resReg src).value
  | .rdsel => .digest (.word (sel.code.setWidth 64))
  | .rdcap => .digest (.word (cap.setWidth 64))

/-- The selector initialisation of the commands that evaluate the CRC32C step (spec R260). -/
def State.initSelFor (s : State) (i : Instr) (c : Context) : State := if usesCrc i c then s.initSel else s

/-- The state after the rule of a command whose reads are all written in the executing context `c`. -/
def State.afterRule (s : State) (i : Instr) (c : Context) : State :=
  (s.initSelFor i c).setCtx (c.apply (effectOf s.sel s.cap c i))

section Fields
variable (s : State) (i : Instr) (c : Context)

@[simp] theorem State.initSelFor_ctxs : (s.initSelFor i c).ctxs = s.ctxs := by unfold State.initSelFor; split <;> simp
@[simp] theorem State.initSelFor_cap : (s.initSelFor i c).cap = s.cap := by unfold State.initSelFor; split <;> simp
@[simp] theorem State.initSelFor_cur : (s.initSelFor i c).cur = s.cur := by unfold State.initSelFor; split <;> simp
@[simp] theorem State.initSelFor_inputs : (s.initSelFor i c).inputs = s.inputs := by
  unfold State.initSelFor; split <;> simp
@[simp] theorem State.initSelFor_readOut : (s.initSelFor i c).readOut = s.readOut := by
  unfold State.initSelFor; split <;> simp

@[simp] theorem State.afterRule_ctxs :
    (s.afterRule i c).ctxs = s.ctxs.set s.cur (c.apply (effectOf s.sel s.cap c i)) := by
  simp [State.afterRule]
@[simp] theorem State.afterRule_cap : (s.afterRule i c).cap = s.cap := by simp [State.afterRule]
@[simp] theorem State.afterRule_cur : (s.afterRule i c).cur = s.cur := by simp [State.afterRule]
@[simp] theorem State.afterRule_inputs : (s.afterRule i c).inputs = s.inputs := by simp [State.afterRule]
@[simp] theorem State.afterRule_readOut : (s.afterRule i c).readOut = s.readOut := by simp [State.afterRule]

end Fields

/-- The context a rule leaves behind. -/
theorem State.ctx?_afterRule {s : State} {c : Context} (h : s.ctx? = some c) (i : Instr) :
    (s.afterRule i c).ctx? = some (c.apply (effectOf s.sel s.cap c i)) :=
  State.ctx?_setCtx (by simpa [State.ctx?] using h) _

/-- A rule that gives result words completes the command. -/
theorem State.afterRule_of_digest {s : State} {i : Instr} {c : Context} {d : Digest}
    (h : effectOf s.sel s.cap c i = .digest d) : s.afterRule i c = (s.initSelFor i c).complete c d := by
  rw [State.afterRule, h]
  rfl

/-- The selector initialisation of the CRC-aware wrappers (spec R231, R232) is that of the table of R260. -/
theorem State.initSelLong_eq_initSelFor {s : State} {i : Instr} {c : Context} (h : usesCrc i c = decide (900 < c.len)) :
    s.initSelLong c = s.initSelFor i c := by
  simp [State.initSelLong, State.initSelFor, h]

/-- A read at ARG0 changes the state by its effect. -/
theorem State.readAt_eq_setCtx (s : State) (c : Context) (width : Nat) (rule : Nat → Digest) :
    s.readAt c width rule = s.setCtx (c.apply (c.readEffect width rule)) := by
  unfold State.readAt Context.readEffect
  split <;> rfl

/-- A well-formed command is the frame of spec R95 over the reads of R97 and the command's rule. -/
theorem exec_eq_command {i : Instr} (hi : i.wellFormed = true) (s : State) :
    exec i s = s.command (readsOf i) (s.afterRule i) := by
  cases i with
  | rotr32 r =>
    have hr : r.toNat < 32 := by simpa [Instr.wellFormed] using hi
    have hx : exec (.rotr32 r) s = s.command [.op .arg0] fun c =>
        s.complete c (.word (rotr32 c.arg0.value.low32 r.toNat).zext64) := if_pos hr
    rw [hx]
    exact congrArg (s.command _) (funext fun c => .symm (State.afterRule_of_digest (i := .rotr32 r) (if_pos hr)))
  | readle64 | readle32 | weakhash32 =>
    exact congrArg (s.command _) (funext fun c => s.readAt_eq_setCtx c _ _)
  | hash128Crc | hash128CrcSeed =>
    exact congrArg (s.command _) (funext fun c => congrArg (State.complete · c _) (State.initSelLong_eq_initSelFor rfl))
  | _ => rfl

/-- The one ill-formed command raises ILLEGAL_COMMAND with its word (spec R87(d), log 15). -/
theorem exec_eq_illegal {i : Instr} (hi : i.wellFormed = false) (s : State) : exec i s = s.illegal (encode i) := by
  cases i with
  | rotr32 r =>
    have hr : ¬ r.toNat < 32 := by simpa [Instr.wellFormed] using hi
    simp [exec, execRotr32, hr]
  | _ => cases hi

/-- The effect of the ill-formed command is its fault. -/
theorem State.afterRule_of_illFormed {i : Instr} (hi : i.wellFormed = false) (s : State) (c : Context) :
    s.afterRule i c = s.raise c .illegalCommand (encode i).zext64 := by
  cases i with
  | rotr32 r =>
    have hr : ¬ r.toNat < 32 := by simpa [Instr.wellFormed] using hi
    simp [State.afterRule, effectOf, hr, State.initSelFor, usesCrc, Context.apply, State.raise]
  | _ => cases hi

/-- A command of a ready context that has every read runs its rule. -/
theorem exec_supplied {i : Instr} {s : State} {c : Context} (h : s.Ready c) (hs : c.Supplied i) :
    exec i s = .next (s.afterRule i c) := by
  cases hi : i.wellFormed with
  | true => rw [exec_eq_command hi, State.command_ready h hs]
  | false => rw [exec_eq_illegal hi, State.illegal, State.present_ready h, State.afterRule_of_illFormed hi]

/-- If a command answers a next state: no step of a faulted context, a fault recorded before the rule (an illegal command
or an unwritten read), or the rule. -/
theorem exec_next {i : Instr} {s t : State} (h : exec i s = .next t) :
    (∃ c, s.ctx? = some c ∧ c.fault ≠ faultNone ∧ t = s) ∨
    (∃ c, s.Ready c ∧ i.wellFormed = false ∧ t = s.raise c .illegalCommand (encode i).zext64) ∨
    (∃ c r, s.Ready c ∧ i.wellFormed = true ∧ c.firstUnwritten (readsOf i) = some r ∧
      t = s.raise c .unwrittenRegister (BitVec.ofNat 64 r.id)) ∨
    (∃ c, s.Ready c ∧ i.wellFormed = true ∧ c.Supplied i ∧ t = s.afterRule i c) := by
  cases hi : i.wellFormed with
  | false =>
    rw [exec_eq_illegal hi] at h
    rcases State.present_next h with hf | ⟨c, hc, rfl⟩
    · exact .inl hf
    · exact .inr (.inl ⟨c, hc, rfl, rfl⟩)
  | true =>
    rw [exec_eq_command hi] at h
    rcases s.command_cases (readsOf i) (s.afterRule i) with
      ⟨_, e⟩ | ⟨c, hc, hf, e⟩ | ⟨c, r, hr, hw, e⟩ | ⟨c, hr, hw, e⟩ <;> rw [e] at h <;> cases h
    · exact .inl ⟨c, hc, hf, rfl⟩
    · exact .inr (.inr (.inl ⟨c, r, hr, rfl, hw, rfl⟩))
    · exact .inr (.inr (.inr ⟨c, hr, rfl, hw, rfl⟩))

end Sys2Proof.Machine
end

/-! SUPPORT. What results depend on (spec R11, R85, R97): the effect of a command is a function of the registers it
reads. -/
section
namespace Sys2Proof.Machine

/-- The effect of a read at ARG0 is a function of the offset, the length and the result it would give. -/
theorem Context.readEffect_congr {c c' : Context} {rule rule' : Nat → Digest} (width : Nat)
    (ho : c.arg0.value = c'.arg0.value) (hm : c.inBuf.cells = c'.inBuf.cells) (hr : rule = rule') :
    c.readEffect width rule = c'.readEffect width rule' := by
  have hb : c.inBounds c.arg0.value width = c'.inBounds c'.arg0.value width := by
    rw [Context.inBounds, Context.inBounds, Context.len, Context.len, ho, hm]
  rw [Context.readEffect, Context.readEffect, hb, ho, hr]

/-- Contexts that hold the same in what a command reads give it the same effect, whatever SEL and CAP are. -/
theorem effectOf_congr {i : Instr} {c c' : Context} (hsel : i ≠ .rdsel) (hcap : i ≠ .rdcap)
    (h : ∀ r ∈ readsOf i, c.SameAt c' r) (sel sel' : Selector) (cap cap' : BitVec 2) :
    effectOf sel cap c i = effectOf sel' cap' c' i := by
  cases i with
  | rdsel => exact absurd rfl hsel
  | rdcap => exact absurd rfl hcap
  | readle64 | readle32 =>
    obtain ⟨ho, hm⟩ : c.arg0.value = c'.arg0.value ∧ c.inBuf.cells = c'.inBuf.cells := by
      simpa [readsOf, Context.SameAt, Context.opReg] using h
    simp only [effectOf, Context.input, hm]
    exact Context.readEffect_congr _ ho hm rfl
  | weakhash32 =>
    obtain ⟨ho, h1, h2, hm⟩ : c.arg0.value = c'.arg0.value ∧ c.arg1.value = c'.arg1.value ∧
        c.arg2.value = c'.arg2.value ∧ c.inBuf.cells = c'.inBuf.cells := by
      simpa [readsOf, Context.SameAt, Context.opReg] using h
    simp only [effectOf, Context.input, h1, h2, hm]
    exact Context.readEffect_congr _ ho hm rfl
  | _ =>
    simp only [readsOf, List.forall_mem_cons, Context.SameAt, Context.opReg] at h
    simp [effectOf, Context.input, h]

/-- Only `MOV` moves a word. -/
theorem effectOf_eq_move {i : Instr} {sel : Selector} {cap : BitVec 2} {c : Context} {dst : OpReg} {v : Word64}
    (h : effectOf sel cap c i = .move dst v) : ∃ src, i = .mov dst src := by
  cases i with
  | mov dst' src => cases h; exact ⟨src, rfl⟩
  | readle64 | readle32 | weakhash32 | rotr32 r =>
    simp only [effectOf, Context.readEffect] at h
    split at h <;> cases h
  | _ => cases h

/-- A recorded code is never NONE (spec R290). -/
theorem FaultCode.code_ne_none (code : FaultCode) : code.code ≠ faultNone := by cases code <;> decide

section SameEffect
variable {c c' : Context} (e : Effect)

/-- One effect leaves the same FAULT in contexts that had the same. -/
theorem Context.apply_fault_congr (h : c.fault = c'.fault) : (c.apply e).fault = (c'.apply e).fault := by
  cases e <;> simp [Context.apply, h]

/-- One effect that faults leaves the same FAULT_INFO. -/
theorem Context.apply_faultInfo_congr (hc : c.fault = faultNone) (hf : (c.apply e).fault ≠ faultNone) :
    (c.apply e).faultInfo = (c'.apply e).faultInfo := by
  cases e with
  | fault code info => rfl
  | digest d => exact absurd hc hf
  | move dst v => exact absurd (by simpa [Context.apply] using hc) hf

/-- A moved word is what its destination holds. -/
@[simp] theorem Context.apply_move_opReg (c : Context) (dst : OpReg) (v : Word64) :
    (c.apply (.move dst v)).opReg dst = Reg.ofWord v := by
  simp [Context.apply]

/-- One effect that neither faults nor moves a word leaves the same result registers. -/
theorem Context.apply_resReg_congr (hf : (c.apply e).fault = faultNone) (hm : ∀ dst v, e ≠ .move dst v) (r : ResReg) :
    (c.apply e).resReg r = (c'.apply e).resReg r := by
  cases e with
  | digest d => cases r <;> rfl
  | move dst v => exact absurd rfl (hm dst v)
  | fault code info => exact absurd hf code.code_ne_none

end SameEffect

/-- Settles O35: equal reads give equal effects, and an effect fixes the fault, the moved word and the results. -/
theorem resultsDependOnReadsOnly : Obligations.ResultsDependOnReadsOnly := by
  unfold Obligations.ResultsDependOnReadsOnly
  intro i s s' c c' hsel hcap hr hr' hs hs' hsame
  have he : effectOf s.sel s.cap c i = effectOf s'.sel s'.cap c' i := effectOf_congr hsel hcap hsame ..
  refine ⟨_, _, _, _, exec_supplied hr hs, exec_supplied hr' hs', State.ctx?_afterRule hr.1 i,
    State.ctx?_afterRule hr'.1 i, ?_⟩
  rw [← he]
  refine ⟨Context.apply_fault_congr _ (hr.2.trans hr'.2.symm), Context.apply_faultInfo_congr _ hr.2, fun hf => ⟨?_, ?_⟩⟩
  · rintro dst src rfl
    simp [effectOf]
  · intro hmov r
    refine Context.apply_resReg_congr _ hf (fun dst v h => ?_) r
    obtain ⟨src, rfl⟩ := effectOf_eq_move h
    exact hmov dst src rfl

end Sys2Proof.Machine
end

/-! SUPPORT. CAP and N_CTX are constants of the platform (spec R6, R41): no line of the host changes them. -/
section
namespace Sys2Proof.Machine

/-- `t` has the CAP and the number of contexts of `s`. -/
def State.SamePlatform (s t : State) : Prop := t.cap = s.cap ∧ t.ctxs.length = s.ctxs.length

theorem State.setCtx_samePlatform (s : State) (c : Context) : s.SamePlatform (s.setCtx c) := by
  simp [State.SamePlatform]

theorem State.afterRule_samePlatform (s : State) (i : Instr) (c : Context) : s.SamePlatform (s.afterRule i c) := by
  simp [State.SamePlatform]

theorem exec_samePlatform {i : Instr} {s t : State} (h : exec i s = .next t) : s.SamePlatform t := by
  rcases exec_next h with ⟨_, _, _, rfl⟩ | ⟨c, _, _, rfl⟩ | ⟨c, r, _, _, _, rfl⟩ | ⟨c, _, _, _, rfl⟩
  · exact ⟨rfl, rfl⟩
  · exact s.setCtx_samePlatform _
  · exact s.setCtx_samePlatform _
  · exact s.afterRule_samePlatform i c

theorem State.presentWord_samePlatform {s t : State} {cw : Word32} (h : s.presentWord cw = .next t) :
    s.SamePlatform t := by
  unfold State.presentWord at h
  split at h
  · exact exec_samePlatform h
  · rcases State.present_next h with ⟨_, _, _, rfl⟩ | ⟨c, _, rfl⟩
    · exact ⟨rfl, rfl⟩
    · exact s.setCtx_samePlatform _

theorem State.takeLine_samePlatform {s t : State} {l : HostLine} (h : s.takeLine l = .next t) : s.SamePlatform t := by
  cases l with
  | command ctx cw => exact State.presentWord_samePlatform (s := { s with cur := ctx }) h
  | set ctx r v =>
    obtain ⟨c, _, e⟩ := State.hostAct_next h
    cases e
    simp [State.SamePlatform]
  | loadIn ctx bs =>
    obtain ⟨c, _, e⟩ := State.hostAct_next h
    split at e <;> cases e
    simp [State.SamePlatform]
  | read ctx r =>
    obtain ⟨c, _, e⟩ := State.hostAct_next h
    cases e
    exact ⟨rfl, rfl⟩
  | reset =>
    cases h
    simp [State.SamePlatform]

/-- Settles O14, by cases on the line that is taken. -/
theorem capAndContextCountConstant : Obligations.CapAndContextCountConstant := by
  unfold Obligations.CapAndContextCountConstant
  intro s t h
  unfold step at h
  split at h
  · cases h
    exact ⟨rfl, rfl⟩
  · next l rest _ => exact State.takeLine_samePlatform (s := { s with inputs := rest }) h

end Sys2Proof.Machine
end

/-! SUPPORT. The state after reset (spec R46, R321): no register is written, so the first read of a command faults. -/
section
namespace Sys2Proof.Machine

@[simp] theorem Context.reset_isWritten (r : Source) : Context.reset.isWritten r = false := by
  cases r with
  | op r => cases r <;> rfl
  | res r => cases r <;> rfl
  | input => rfl

/-- With nothing written, the first read is missing. -/
theorem Context.reset_firstUnwritten (reads : List Source) : Context.reset.firstUnwritten reads = reads.head? := by
  cases reads <;> simp [Context.firstUnwritten]

@[simp] theorem State.reset_ctxs_length : State.reset.ctxs.length = Config.nCtx := List.length_replicate

theorem Config.one_le_nCtx : 1 ≤ Config.nCtx := Nat.le_add_left 1 _

theorem State.mem_reset_ctxs {c : Context} (h : c ∈ State.reset.ctxs) : c = Context.reset := List.eq_of_mem_replicate h

/-- The executing context after reset takes steps (spec R322). -/
theorem State.reset_ready : State.reset.Ready Context.reset := ⟨rfl, rfl⟩

/-- A well-formed command right after reset records its first read (spec R46, R292). -/
theorem exec_reset {i : Instr} {r : Source} (hi : i.wellFormed = true) (hr : (readsOf i).head? = some r) :
    exec i State.reset = .next (State.reset.faultTaken Context.reset 2#8 (BitVec.ofNat 64 r.id)) := by
  rw [exec_eq_command hi,
    State.command_unwritten State.reset_ready ((Context.reset_firstUnwritten _).trans hr)]
  rfl

/-- Settles O7, field by field, with the first reads by `exec_reset`. -/
theorem resetState : Obligations.ResetState := by
  unfold Obligations.ResetState
  refine ⟨rfl, rfl, rfl, State.reset_ctxs_length, ?_, ?_, fun i r => exec_reset⟩
  · simpa using Config.one_le_nCtx
  · intro c hc
    rw [State.mem_reset_ctxs hc]
    exact ⟨rfl, rfl, rfl, Context.reset_isWritten⟩

end Sys2Proof.Machine
end

/-! SUPPORT. What one line of the host comes to, said once (spec 30_encoding R91, R95): the context it belongs to, SEL
and the host's port change as functions of that context, SEL and CAP alone (`step_eq_hostAct`). Every frame, invariant
and two-run statement about steps is read off this equation. -/
section
namespace Sys2Proof.Machine

/-- What a presented word comes to in its context: no step, or an effect, with the selector initialisation of spec R260
or without it. -/
inductive Reaction where
  | idle
  | act (e : Effect) (crc : Bool)

/-- The reaction of a context that takes steps; a faulted one takes none (spec R95, R296). -/
def Context.answer (c : Context) (q : Reaction) : Reaction := if c.faulted then .idle else q

/-- The reaction to a legal command: its first missing read, or its rule (spec R95, R292). -/
def Context.ruleReaction (sel : Selector) (cap : BitVec 2) (c : Context) (i : Instr) : Reaction :=
  match c.firstUnwritten (readsOf i) with
  | some r => .act (.fault .unwrittenRegister (BitVec.ofNat 64 r.id)) false
  | none => .act (effectOf sel cap c i) (usesCrc i c)

/-- The reaction to a command. -/
def Context.commandReaction (sel : Selector) (cap : BitVec 2) (c : Context) (i : Instr) : Reaction :=
  c.answer <|
    if i.wellFormed then c.ruleReaction sel cap i else .act (.fault .illegalCommand (encode i).zext64) false

/-- The reaction to a word, legal or not (spec R87, R95). -/
def Context.wordReaction (sel : Selector) (cap : BitVec 2) (c : Context) (cw : Word32) : Reaction :=
  match decode cw with
  | .ok i => c.commandReaction sel cap i
  | .error _ => c.answer (.act (.fault .illegalCommand cw.zext64) false)

/-- The context after a reaction. -/
def Context.react (c : Context) : Reaction → Context
  | .idle => c
  | .act e _ => c.apply e

/-- SEL after a reaction (spec R260). -/
def Reaction.selAfter (sel : Selector) (cap : BitVec 2) : Reaction → Selector
  | .act _ true => if sel = .uninit then probe cap else sel
  | .act _ false | .idle => sel

/-- The state after a reaction of the executing context `c`. -/
def State.react (s : State) (c : Context) (q : Reaction) : State :=
  { s with ctxs := s.ctxs.set s.cur (c.react q), sel := q.selAfter s.sel s.cap }

/-- The context after a line of its own, or after the reset. -/
def HostLine.ctxAfter (sel : Selector) (cap : BitVec 2) (c : Context) : HostLine → Context
  | .command _ cw => c.react (c.wordReaction sel cap cw)
  | .set _ r v => c.setOpReg r v
  | .loadIn _ bs => c.setInput bs
  | .read _ _ => c
  | .reset => Context.reset

/-- SEL after a line of the context `c`. -/
def HostLine.selAfter (sel : Selector) (cap : BitVec 2) (c : Context) : HostLine → Selector
  | .command _ cw => (c.wordReaction sel cap cw).selAfter sel cap
  | .set _ _ _ | .loadIn _ _ | .read _ _ => sel
  | .reset => .uninit

/-- The host's port after a line of the context `c` (log 12). -/
def HostLine.readOutAfter (out : Option HostValue) (c : Context) : HostLine → Option HostValue
  | .read _ r => c.hostValue r
  | .command _ _ | .set _ _ _ | .loadIn _ _ | .reset => out

/-- The executing context after a line (log 3). -/
def HostLine.curAfter (cur : Nat) : HostLine → Nat
  | .command k _ => k
  | .set _ _ _ | .loadIn _ _ | .read _ _ | .reset => cur

/-- A `LOADIN` that LEN cannot express (log 11). -/
def HostLine.tooLong : HostLine → Bool
  | .loadIn _ bs => decide (2 ^ 64 ≤ bs.length)
  | .command _ _ | .set _ _ _ | .read _ _ | .reset => false

/-- The state after the line `l` of context `k`, which is `c`, with the lines `rest` behind it. -/
def State.afterLine (s : State) (l : HostLine) (rest : List HostLine) (k : Nat) (c : Context) : State where
  ctxs := s.ctxs.set k (l.ctxAfter s.sel s.cap c)
  sel := l.selAfter s.sel s.cap c
  cap := s.cap
  cur := l.curAfter s.cur
  inputs := rest
  readOut := l.readOutAfter s.readOut c

/-! ### A command -/

/-- Putting a context back where it stands changes nothing. -/
theorem State.set_ctxs_self {s : State} {k : Nat} {c : Context} (h : s.ctxs[k]? = some c) :
    s.ctxs.set k c = s.ctxs := by
  obtain ⟨hk, rfl⟩ := List.getElem?_eq_some_iff.1 h
  exact List.set_getElem_self hk

theorem State.react_idle {s : State} {c : Context} (h : s.ctx? = some c) : s.react c .idle = s := by
  simp [State.react, Context.react, Reaction.selAfter, State.set_ctxs_self h]

theorem State.react_fault (s : State) (c : Context) (code : FaultCode) (info : Word64) :
    s.react c (.act (.fault code info) false) = s.raise c code info := rfl

theorem State.react_rule (s : State) (i : Instr) (c : Context) :
    s.react c (.act (effectOf s.sel s.cap c i) (usesCrc i c)) = s.afterRule i c := by
  cases h : usesCrc i c with
  | false => simp [State.react, Context.react, Reaction.selAfter, State.afterRule, State.initSelFor, State.setCtx, h]
  | true =>
    simp [State.react, Context.react, Reaction.selAfter, State.afterRule, State.initSelFor, State.setCtx,
      State.initSel_eq_selChosen, State.selChosen, h]

theorem Context.answer_of_ready {c : Context} (h : c.fault = faultNone) (q : Reaction) : c.answer q = q := by
  simp [Context.answer, Context.faulted_eq_false.2 h]

theorem Context.answer_of_faulted {c : Context} (h : c.fault ≠ faultNone) (q : Reaction) : c.answer q = .idle := by
  simp [Context.answer, Context.faulted_eq_true.2 h]

/-- A reaction is what a presented word does to the state. -/
theorem State.present_eq_react {s : State} {c : Context} {act : Context → State} {q : Reaction} (h : s.ctx? = some c)
    (hq : act c = s.react c q) : s.present act = .next (s.react c (c.answer q)) := by
  by_cases hf : c.fault = faultNone
  · rw [State.present_ready ⟨h, hf⟩, Context.answer_of_ready hf, hq]
  · rw [State.present_faulted h hf, Context.answer_of_faulted hf, State.react_idle h]

/-- The check of the reads followed by the rule, as a reaction. -/
theorem State.checkReads_eq_react (s : State) (i : Instr) (c : Context) :
    s.checkReads c (readsOf i) (s.afterRule i) = s.react c (c.ruleReaction s.sel s.cap i) := by
  unfold State.checkReads Context.ruleReaction
  cases c.firstUnwritten (readsOf i) with
  | some r => rfl
  | none => exact (s.react_rule i c).symm

/-- What an answer does is what its reaction does, in a context without a fault. -/
theorem Context.answer_eq_act {c : Context} {q : Reaction} {e : Effect} {crc : Bool} (h : c.answer q = .act e crc) :
    c.fault = faultNone ∧ q = .act e crc := by
  by_cases hf : c.fault = faultNone
  · exact ⟨hf, Context.answer_of_ready hf q ▸ h⟩
  · rw [Context.answer_of_faulted hf] at h
    cases h

/-- The three things a command can do: record that it is ill formed, record a missing read, or run its rule. -/
theorem Context.commandReaction_eq_act {sel : Selector} {cap : BitVec 2} {c : Context} {i : Instr} {e : Effect}
    {crc : Bool} (h : c.commandReaction sel cap i = .act e crc) :
    (i.wellFormed = false ∧ e = .fault .illegalCommand (encode i).zext64 ∧ crc = false) ∨
    (∃ r : Source, e = .fault .unwrittenRegister (BitVec.ofNat 64 r.id) ∧ crc = false) ∨
    (e = effectOf sel cap c i ∧ crc = usesCrc i c) := by
  obtain ⟨-, hq⟩ := Context.answer_eq_act h
  cases hi : i.wellFormed with
  | false =>
    rw [hi] at hq
    cases hq
    exact .inl ⟨rfl, rfl, rfl⟩
  | true =>
    rw [hi, if_pos rfl, Context.ruleReaction] at hq
    cases hw : c.firstUnwritten (readsOf i) with
    | some r =>
      rw [hw] at hq
      cases hq
      exact .inr (.inl ⟨r, rfl, rfl⟩)
    | none =>
      rw [hw] at hq
      cases hq
      exact .inr (.inr ⟨rfl, rfl⟩)

/-- Everything a command does, as a function of its context, SEL and CAP. -/
theorem exec_eq_react {s : State} {c : Context} (h : s.ctx? = some c) (i : Instr) :
    exec i s = .next (s.react c (c.commandReaction s.sel s.cap i)) := by
  cases hi : i.wellFormed with
  | true =>
    rw [exec_eq_command hi, State.command, State.present_eq_react h (s.checkReads_eq_react i c),
      Context.commandReaction, if_pos hi]
  | false =>
    rw [exec_eq_illegal hi, State.illegal, State.present_eq_react h (s.react_fault c _ _).symm, Context.commandReaction,
      if_neg (by simp [hi])]

theorem State.present_no_ctx {s : State} (h : s.ctx? = none) (act : Context → State) :
    s.present act = .fault .noSuchContext := by
  simp [State.present, h]

theorem exec_no_ctx {s : State} (h : s.ctx? = none) (i : Instr) : exec i s = .fault .noSuchContext := by
  cases hi : i.wellFormed with
  | true => rw [exec_eq_command hi, State.command, State.present_no_ctx h]
  | false => rw [exec_eq_illegal hi, State.illegal, State.present_no_ctx h]

/-- A command that answers a next state is the reaction of its context. -/
theorem exec_next_react {i : Instr} {s t : State} (h : exec i s = .next t) :
    ∃ c, s.ctx? = some c ∧ t = s.react c (c.commandReaction s.sel s.cap i) := by
  cases hc : s.ctx? with
  | none =>
    rw [exec_no_ctx hc] at h
    cases h
  | some c =>
    rw [exec_eq_react hc] at h
    cases h
    exact ⟨c, rfl, rfl⟩

/-! ### A line -/

theorem HostLine.ctx?_of_ne_reset {l : HostLine} (h : l ≠ .reset) : ∃ k, l.ctx? = some k := by
  cases l with
  | reset => exact absurd rfl h
  | command k | set k | loadIn k | read k => exact ⟨k, rfl⟩

theorem step_cons {s : State} {l : HostLine} {rest : List HostLine} (h : s.inputs = l :: rest) :
    step s = State.takeLine { s with inputs := rest } l := by
  rw [step, h]

theorem State.hostAct_none {s : State} {k : Nat} (h : s.ctxs[k]? = none)
    (act : Context → Host.Outcome State Fault Refusal) : s.hostAct k act = .fault .noSuchContext := by
  simp [State.hostAct, h]

/-- A presented word is the reaction of the executing context. -/
theorem State.presentWord_eq_react {s : State} {c : Context} (h : s.ctx? = some c) (cw : Word32) :
    s.presentWord cw = .next (s.react c (c.wordReaction s.sel s.cap cw)) := by
  unfold State.presentWord Context.wordReaction
  cases decode cw with
  | ok i => exact exec_eq_react h i
  | error e => exact State.present_eq_react h (s.react_fault c _ _).symm

theorem State.presentWord_no_ctx {s : State} (h : s.ctx? = none) (cw : Word32) :
    s.presentWord cw = .fault .noSuchContext := by
  unfold State.presentWord
  cases decode cw with
  | ok i => exact exec_no_ctx h i
  | error e => exact State.present_no_ctx h _

/-- What a line of context `k` does when that context is `c`. -/
theorem step_eq_afterLine {s : State} {l : HostLine} {rest : List HostLine} {k : Nat} {c : Context}
    (hl : s.inputs = l :: rest) (hk : l.ctx? = some k) (hc : s.ctxs[k]? = some c) :
    step s = if l.tooLong then .refused .inputTooLong else .next (s.afterLine l rest k c) := by
  rw [step_cons hl]
  cases l with
  | reset => cases hk
  | command j cw =>
    cases hk
    exact State.presentWord_eq_react (s := { s with cur := k, inputs := rest }) hc cw
  | set j r v =>
    cases hk
    exact State.hostAct_some (s := { s with inputs := rest }) hc _
  | loadIn j bs =>
    cases hk
    refine (State.hostAct_some (s := { s with inputs := rest }) hc _).trans ?_
    by_cases h : bs.length < 2 ^ 64
    · simp only [HostLine.tooLong, h, Nat.not_le.2 h, decide_false, if_true]
      rfl
    · simp only [HostLine.tooLong, h, Nat.not_lt.1 h, decide_true, if_true, if_false]
  | read j r =>
    cases hk
    refine (State.hostAct_some (s := { s with inputs := rest }) hc _).trans ?_
    simp only [State.afterLine, HostLine.ctxAfter, State.set_ctxs_self hc]
    rfl

/-- Everything a line of context `k` can come to: no such context, a refusal, or the next state. -/
theorem step_eq_hostAct {s : State} {l : HostLine} {rest : List HostLine} {k : Nat} (hl : s.inputs = l :: rest)
    (hk : l.ctx? = some k) :
    step s = s.hostAct k fun c => if l.tooLong then .refused .inputTooLong else .next (s.afterLine l rest k c) := by
  cases hc : s.ctxs[k]? with
  | some c => rw [step_eq_afterLine hl hk hc, State.hostAct_some hc]
  | none =>
    rw [step_cons hl, State.hostAct_none hc]
    cases l with
    | reset => cases hk
    | command j cw =>
      cases hk
      exact State.presentWord_no_ctx (s := { s with cur := k, inputs := rest }) hc cw
    | set | loadIn | read =>
      cases hk
      exact State.hostAct_none (s := { s with inputs := rest }) hc _

/-- A line of context `k` that answers a next state. -/
theorem step_next_line {s t : State} {l : HostLine} {rest : List HostLine} {k : Nat} (hl : s.inputs = l :: rest)
    (hk : l.ctx? = some k) (h : step s = .next t) :
    ∃ c, s.ctxs[k]? = some c ∧ l.tooLong = false ∧ t = s.afterLine l rest k c := by
  rw [step_eq_hostAct hl hk] at h
  obtain ⟨c, hc, e⟩ := State.hostAct_next h
  by_cases hb : l.tooLong = true
  · rw [if_pos hb] at e
    cases e
  · rw [if_neg hb] at e
    cases e
    exact ⟨c, hc, Bool.eq_false_iff.2 hb, rfl⟩

/-- The context of a line after it. -/
theorem State.afterLine_ctx_same {s : State} {k : Nat} {c : Context} (hc : s.ctxs[k]? = some c) (l : HostLine)
    (rest : List HostLine) : (s.afterLine l rest k c).ctxs[k]? = some (l.ctxAfter s.sel s.cap c) := by
  simp [State.afterLine, (List.getElem?_eq_some_iff.1 hc).1]

/-- Every other context after a line. -/
theorem State.afterLine_ctx_ne {k j : Nat} (h : j ≠ k) (s : State) (l : HostLine) (rest : List HostLine) (c : Context) :
    (s.afterLine l rest k c).ctxs[j]? = s.ctxs[j]? := by
  simp [State.afterLine, List.getElem?_set_ne h.symm]

end Sys2Proof.Machine
end

/-! SUPPORT. The words the decoder refuses are illegal by the arithmetic of spec 30_encoding R87. -/
section
namespace Sys2Proof.Machine

section FieldNumbers
variable (cw : Word32)

@[simp] theorem fieldsOf_opc_toNat : (fieldsOf cw).opc.toNat = cw.toNat % 256 := by
  simp [fieldsOf, BitVec.extractLsb'_toNat]
@[simp] theorem fieldsOf_imm_toNat : (fieldsOf cw).imm.toNat = cw.toNat / 2 ^ 8 % 64 := by
  simp [fieldsOf, BitVec.extractLsb'_toNat, Nat.shiftRight_eq_div_pow]
@[simp] theorem fieldsOf_s_toNat : (fieldsOf cw).s.toNat = cw.toNat / 2 ^ 14 % 4 := by
  simp [fieldsOf, BitVec.extractLsb'_toNat, Nat.shiftRight_eq_div_pow]
@[simp] theorem fieldsOf_d_toNat : (fieldsOf cw).d.toNat = cw.toNat / 2 ^ 16 % 8 := by
  simp [fieldsOf, BitVec.extractLsb'_toNat, Nat.shiftRight_eq_div_pow]
@[simp] theorem fieldsOf_rsv_toNat : (fieldsOf cw).rsv.toNat = cw.toNat / 2 ^ 19 := by
  have h := cw.isLt
  simp only [fieldsOf, BitVec.extractLsb'_toNat, Nat.shiftRight_eq_div_pow]
  omega

end FieldNumbers

/-- What the opcode map says of an opcode, in numbers (spec R86, R87(a)). -/
def opcodeInClass (n : Nat) : Option Opcode → Bool
  | none => decide (n = 0x00 ∨ (0x0C ≤ n ∧ n ≤ 0x0F) ∨ (0x1D ≤ n ∧ n ≤ 0x1F) ∨ 0x23 ≤ n)
  | some (.plain _) => decide (n ≠ 0x17 ∧ n ≠ 0x18 ∧ n ≠ 0x20)
  | some .rotr64 => decide (n = 0x17)
  | some .rotr32 => decide (n = 0x18)
  | some .mov => decide (n = 0x20)

theorem opcodeMap_inClass : ∀ opc : BitVec 8, opcodeInClass opc.toNat (opcodeMap opc) = true := by decide

/-- A reserved D is 5 or more (spec R84, R87(e)). -/
theorem destOf_eq_none : ∀ d : BitVec 3, destOf d = none → 5 ≤ d.toNat := by decide

section FormatErrors
variable {cw : Word32} {e : Illegal}

theorem decodePlain_error {i : Instr} (h : decodePlain i (fieldsOf cw) = .error e) :
    cw.toNat / 2 ^ 8 % 64 ≠ 0 ∨ cw.toNat / 2 ^ 14 % 4 ≠ 0 ∨ cw.toNat / 2 ^ 16 % 8 ≠ 0 := by
  by_contra! hz
  simp [-Nat.reducePow, decodePlain, BitVec.toNat_eq, hz] at h

theorem decodeRotr64_error (h : decodeRotr64 (fieldsOf cw) = .error e) :
    cw.toNat / 2 ^ 14 % 4 ≠ 0 ∨ cw.toNat / 2 ^ 16 % 8 ≠ 0 := by
  by_contra! hz
  simp [-Nat.reducePow, decodeRotr64, BitVec.toNat_eq, hz] at h

theorem decodeRotr32_error (h : decodeRotr32 (fieldsOf cw) = .error e) :
    (cw.toNat / 2 ^ 14 % 4 ≠ 0 ∨ cw.toNat / 2 ^ 16 % 8 ≠ 0) ∨ 32 ≤ cw.toNat / 2 ^ 8 % 64 := by
  by_contra! hz
  simp [-Nat.reducePow, decodeRotr32, BitVec.toNat_eq, hz] at h

theorem decodeMov_error (h : decodeMov (fieldsOf cw) = .error e) :
    cw.toNat / 2 ^ 8 % 64 ≠ 0 ∨ 5 ≤ cw.toNat / 2 ^ 16 % 8 := by
  by_contra! hz
  cases hd : destOf (fieldsOf cw).d with
  | none => exact absurd (destOf_eq_none _ hd) (by simpa using hz.2)
  | some dst => simp [-Nat.reducePow, decodeMov, BitVec.toNat_eq, hz, hd] at h

end FormatErrors

/-- A word the decoder refuses meets one of the conditions of spec R87. -/
theorem illegalWord_of_decode_error {cw : Word32} {e : Illegal} (h : decode cw = .error e) : IllegalWord cw := by
  have hop := opcodeMap_inClass (fieldsOf cw).opc
  rw [fieldsOf_opc_toNat] at hop
  unfold decode at h
  unfold IllegalWord
  cases ho : opcodeMap (fieldsOf cw).opc with
  | none =>
    rw [ho] at hop
    exact .inl (of_decide_eq_true hop)
  | some op =>
    rw [ho] at hop
    by_cases hrsv : (fieldsOf cw).rsv = 0
    · simp only [ho, hrsv, if_true] at h
      cases op with
      | plain i =>
        obtain ⟨h17, h18, h20⟩ := of_decide_eq_true hop
        exact .inr (.inr (.inl ⟨h17, h18, h20, decodePlain_error h⟩))
      | rotr64 => exact .inr (.inr (.inr (.inl ⟨.inl (of_decide_eq_true hop), decodeRotr64_error h⟩)))
      | rotr32 =>
        have h18 := of_decide_eq_true hop
        rcases decodeRotr32_error h with hf | himm
        · exact .inr (.inr (.inr (.inl ⟨.inr h18, hf⟩)))
        · exact .inr (.inr (.inr (.inr (.inr (.inl ⟨h18, himm⟩)))))
      | mov =>
        have h20 := of_decide_eq_true hop
        rcases decodeMov_error h with himm | hd
        · exact .inr (.inr (.inr (.inr (.inl ⟨h20, himm⟩))))
        · exact .inr (.inr (.inr (.inr (.inr (.inr ⟨h20, hd⟩)))))
    · have hne : cw.toNat / 2 ^ 19 ≠ 0 := by simpa [BitVec.toNat_eq] using hrsv
      exact .inr (.inl hne)

/-- The word of the ill-formed command is refused (spec R87(d)). -/
theorem decode_encode_of_illFormed {i : Instr} (hi : i.wellFormed = false) :
    decode (encode i) = .error .rotateTooLarge := by
  cases i with
  | rotr32 r =>
    revert r
    decide
  | _ => cases hi

end Sys2Proof.Machine
end

/-! SUPPORT. The invariant of the core (spec R34, R96, R290): it holds after reset and every line keeps it. -/
section
namespace Sys2Proof.Machine

/-- An effect that records only what spec R290 to R293 say: an illegal word, the id of a register, or an offset. -/
def Effect.Justified : Effect → Prop
  | .digest _ | .move _ _ => True
  | .fault .illegalCommand info => ∃ cw, IllegalWord cw ∧ info = cw.zext64
  | .fault .unwrittenRegister info => ∃ r : Source, info = BitVec.ofNat 64 r.id
  | .fault .outOfBounds _ => True

/-- A rule records no fault but OUT_OF_BOUNDS and the illegal amount of `ROTR32` (spec R87(d), R293). -/
theorem effectOf_justified (sel : Selector) (cap : BitVec 2) (c : Context) (i : Instr) :
    (effectOf sel cap c i).Justified := by
  cases i with
  | readle64 | readle32 | weakhash32 =>
    simp only [effectOf, Context.readEffect]
    split <;> trivial
  | rotr32 r =>
    simp only [effectOf]
    split
    · trivial
    · next hr =>
      have hi : (Instr.rotr32 r).wellFormed = false := by simpa [Instr.wellFormed] using hr
      exact ⟨_, illegalWord_of_decode_error (decode_encode_of_illFormed hi), rfl⟩
  | _ => trivial

theorem Context.commandReaction_justified {sel : Selector} {cap : BitVec 2} {c : Context} {i : Instr} {e : Effect}
    {crc : Bool} (h : c.commandReaction sel cap i = .act e crc) : e.Justified := by
  rcases Context.commandReaction_eq_act h with ⟨hi, rfl, -⟩ | ⟨r, rfl, -⟩ | ⟨rfl, -⟩
  · exact ⟨_, illegalWord_of_decode_error (decode_encode_of_illFormed hi), rfl⟩
  · exact ⟨r, rfl⟩
  · exact effectOf_justified sel cap c i

theorem Context.wordReaction_justified {sel : Selector} {cap : BitVec 2} {c : Context} {cw : Word32} {e : Effect}
    {crc : Bool} (h : c.wordReaction sel cap cw = .act e crc) : e.Justified := by
  unfold Context.wordReaction at h
  cases hd : decode cw with
  | ok i =>
    rw [hd] at h
    exact Context.commandReaction_justified h
  | error er =>
    rw [hd] at h
    obtain ⟨-, hq⟩ := Context.answer_eq_act h
    cases hq
    exact ⟨cw, illegalWord_of_decode_error hd, rfl⟩

/-- The invariant of a context speaks of IN, the `written` bits of RES0–RES3, FAULT and FAULT_INFO only. -/
theorem Context.Inv.congr {c c' : Context} (h : c.Inv) (hin : Memory.wf c'.inBuf.cells = true)
    (hres : c'.res1.written = c'.res0.written ∧ c'.res2.written = c'.res0.written ∧ c'.res3.written = c'.res0.written)
    (hf : c'.fault = c.fault) (hi : c'.faultInfo = c.faultInfo) : c'.Inv where
  input := hin
  results := hres
  code := hf ▸ h.code
  noneInfo := by simpa [hf, hi] using h.noneInfo
  illegalInfo := by simpa [hf, hi] using h.illegalInfo
  unwrittenInfo := by simpa [hf, hi] using h.unwrittenInfo

/-- A write of an operand or seed register keeps the invariant. -/
theorem Context.Inv.setOpReg {c : Context} (h : c.Inv) (r : OpReg) (v : Word64) : (c.setOpReg r v).Inv :=
  h.congr (by simpa using h.input) (by simpa using h.results) (by simp) (by simp)

/-- `LOADIN` keeps the invariant when LEN can express the length (spec R34). -/
theorem Context.Inv.setInput {c : Context} (h : c.Inv) {bs : List Byte} (hb : bs.length < 2 ^ 64) :
    (c.setInput bs).Inv :=
  h.congr (Memory.wf_ofBytes hb) h.results rfl rfl

/-- A step of the index keeps the invariant. -/
theorem Context.Inv.advance {c : Context} (h : c.Inv) : c.advance.Inv :=
  h.congr h.input h.results rfl rfl

/-- Result words are written together (spec R96). -/
theorem Context.Inv.setResults {c : Context} (h : c.Inv) (d : Digest) : (c.setResults d).Inv :=
  h.congr h.input ⟨rfl, rfl, rfl⟩ rfl rfl

theorem FaultCode.code_le_three (code : FaultCode) : code.code.toNat ≤ 3 := by cases code <;> decide

theorem FaultCode.code_injective : Function.Injective FaultCode.code := by
  intro a b
  cases a <;> cases b <;> decide

/-- A recorded fault keeps the invariant when its information is what spec R290 says. -/
theorem Context.Inv.raise {c : Context} (h : c.Inv) {code : FaultCode} {info : Word64}
    (hj : (Effect.fault code info).Justified) : (c.raise code info).Inv where
  input := h.input
  results := h.results
  code := code.code_le_three
  noneInfo := fun hc => absurd hc code.code_ne_none
  illegalInfo := fun hc => by
    obtain rfl : code = .illegalCommand := FaultCode.code_injective hc
    exact hj
  unwrittenInfo := fun hc => by
    obtain rfl : code = .unwrittenRegister := FaultCode.code_injective hc
    exact hj

theorem Context.Inv.apply {c : Context} (h : c.Inv) {e : Effect} (hj : e.Justified) : (c.apply e).Inv := by
  cases e with
  | digest d => exact (h.setResults d).advance
  | move dst v => exact (h.setOpReg dst v).advance
  | fault code info => exact h.raise hj

theorem Context.reset_inv : Context.reset.Inv where
  input := Memory.wf_reset
  results := ⟨rfl, rfl, rfl⟩
  code := by decide
  noneInfo := fun _ => rfl
  illegalInfo := fun h => absurd h (by decide)
  unwrittenInfo := fun h => absurd h (by decide)

/-- A line keeps the invariant of its context. -/
theorem HostLine.ctxAfter_inv {l : HostLine} (hl : l.tooLong = false) {c : Context} (h : c.Inv) (sel : Selector)
    (cap : BitVec 2) : (l.ctxAfter sel cap c).Inv := by
  cases l with
  | command k cw =>
    simp only [HostLine.ctxAfter]
    cases hq : c.wordReaction sel cap cw with
    | idle => exact h
    | act e crc => exact h.apply (Context.wordReaction_justified hq)
  | set k r v => exact h.setOpReg r v
  | loadIn k bs => exact h.setInput (by simpa [HostLine.tooLong] using hl)
  | read k r => exact h
  | reset => exact Context.reset_inv

/-- The executing context after a line is the one before or that of the line. -/
theorem HostLine.curAfter_lt {l : HostLine} {cur k n : Nat} (hcur : cur < n) (hk : l.ctx? = some k) (hn : k < n) :
    l.curAfter cur < n := by
  cases l with
  | command j cw => cases hk; exact hn
  | set | loadIn | read | reset => exact hcur

theorem State.Inv.afterLine {s : State} (h : s.Inv) {l : HostLine} {k : Nat} {c : Context} (hk : l.ctx? = some k)
    (hc : s.ctxs[k]? = some c) (hl : l.tooLong = false) (rest : List HostLine) : (s.afterLine l rest k c).Inv where
  cur := by
    simpa [State.afterLine] using HostLine.curAfter_lt h.cur hk (List.getElem?_eq_some_iff.1 hc).1
  ctxs := fun d hd => by
    rcases List.mem_or_eq_of_mem_set hd with hm | rfl
    · exact h.ctxs d hm
    · exact HostLine.ctxAfter_inv hl (h.ctxs c (List.mem_of_getElem? hc)) s.sel s.cap

theorem State.Inv.resetCore {s : State} (h : s.Inv) : s.resetCore.Inv where
  cur := by simpa using h.cur
  ctxs := fun c hc => List.eq_of_mem_replicate hc ▸ Context.reset_inv

/-- The invariant does not see the lines of the host. -/
theorem State.Inv.inputs {s : State} (h : s.Inv) (ls : List HostLine) : State.Inv { s with inputs := ls } where
  cur := h.cur
  ctxs := h.ctxs

/-- Settles O9, by cases on the next line: none, the reset, or a line of one context. -/
theorem stepKeepsStateInv : Obligations.StepKeepsStateInv := by
  unfold Obligations.StepKeepsStateInv
  intro s t hs h
  cases hl : s.inputs with
  | nil =>
    rw [step, hl] at h
    cases h
    exact hs
  | cons l rest =>
    by_cases hr : l = .reset
    · subst hr
      rw [step_cons hl] at h
      cases h
      exact (hs.inputs rest).resetCore
    · obtain ⟨k, hk⟩ := HostLine.ctx?_of_ne_reset hr
      obtain ⟨c, hc, hlong, rfl⟩ := step_next_line hl hk h
      exact hs.afterLine hk hc hlong rest

/-- Settles O10: every context is at reset, and there is one. -/
theorem resetMeetsStateInv : Obligations.ResetMeetsStateInv := by
  unfold Obligations.ResetMeetsStateInv
  exact ⟨State.reset_ctxs_length ▸ Config.one_le_nCtx, fun c hc => State.mem_reset_ctxs hc ▸ Context.reset_inv⟩

end Sys2Proof.Machine
end

/-! SUPPORT. A line of one context reads and writes no other (spec R30, R303), on any line but the reset. -/
section
namespace Sys2Proof.Machine

/-- Settles O13: what a line does is computed from its own context, SEL, CAP and the port. -/
theorem contextReadsStayHome : Obligations.ContextReadsStayHome := by
  unfold Obligations.ContextReadsStayHome
  intro s s' t l rest k hl hl' hk hctx hsel hcap hout h
  obtain ⟨c, hc, hlong, rfl⟩ := step_next_line hl hk h
  have hc' : s'.ctxs[k]? = some c := hctx.trans hc
  refine ⟨s'.afterLine l rest k c, ?_, ?_, ?_, ?_⟩
  · simp [step_eq_afterLine hl' hk hc', hlong]
  · rw [State.afterLine_ctx_same hc', State.afterLine_ctx_same hc, hsel, hcap]
  · simp only [State.afterLine, hsel, hcap]
  · simp only [State.afterLine, hout]

/-- Settles O12: the one context written is that of the line. -/
theorem contextWritesStayHome : Obligations.ContextWritesStayHome := by
  unfold Obligations.ContextWritesStayHome
  intro s t l rest k hl hk h j hj
  obtain ⟨c, -, -, rfl⟩ := step_next_line hl hk h
  exact State.afterLine_ctx_ne hj s l rest c

end Sys2Proof.Machine
end

/-! SUPPORT. What no line but the reset undoes (spec R36, R40): a `written` bit that is set, and a selector that is
chosen. -/
section
namespace Sys2Proof.Machine

/-- Every `written` bit of `c` is set in `c'` too. -/
def Context.KeepsWritten (c c' : Context) : Prop := ∀ r : Source, c.isWritten r = true → c'.isWritten r = true

theorem Context.KeepsWritten.of_eq {c c' : Context} (hop : ∀ r, c'.opReg r = c.opReg r)
    (hres : ∀ r, c'.resReg r = c.resReg r) (hin : c'.inBuf = c.inBuf) : c.KeepsWritten c' := by
  intro r h
  cases r with
  | op r => simpa [Context.isWritten, hop] using h
  | res r => simpa [Context.isWritten, hres] using h
  | input => simpa [Context.isWritten, hin] using h

theorem Context.setOpReg_keepsWritten (c : Context) (r : OpReg) (v : Word64) : c.KeepsWritten (c.setOpReg r v) := by
  intro q h
  cases q with
  | op q =>
    by_cases hq : q = r
    · simp [Context.isWritten, hq]
    · simpa [Context.isWritten, hq] using h
  | res q => simpa [Context.isWritten] using h
  | input => simpa [Context.isWritten] using h

theorem Context.setInput_keepsWritten (c : Context) (bs : List Byte) : c.KeepsWritten (c.setInput bs) := by
  intro q h
  cases q with
  | op q => simpa [Context.isWritten] using h
  | res q => simpa [Context.isWritten] using h
  | input => rfl

@[simp] theorem Context.setResults_resReg_written (c : Context) (d : Digest) (r : ResReg) :
    ((c.setResults d).resReg r).written = true := by cases r <;> rfl

theorem Context.apply_keepsWritten (c : Context) (e : Effect) : c.KeepsWritten (c.apply e) := by
  cases e with
  | digest d =>
    intro q h
    cases q with
    | op q => simpa [Context.isWritten, Context.apply] using h
    | res q => simp [Context.isWritten, Context.apply]
    | input => exact h
  | move dst v =>
    have hadv : (c.setOpReg dst v).KeepsWritten (c.setOpReg dst v).advance := .of_eq (by simp) (by simp) rfl
    exact fun q h => hadv q (c.setOpReg_keepsWritten dst v q h)
  | fault code info => exact .of_eq (by simp [Context.apply]) (by simp [Context.apply]) rfl

theorem HostLine.ctxAfter_keepsWritten {l : HostLine} (hr : l ≠ .reset) (sel : Selector) (cap : BitVec 2)
    (c : Context) : c.KeepsWritten (l.ctxAfter sel cap c) := by
  cases l with
  | command k cw =>
    simp only [HostLine.ctxAfter]
    cases c.wordReaction sel cap cw with
    | idle => exact fun _ h => h
    | act e crc => exact c.apply_keepsWritten e
  | set k r v => exact c.setOpReg_keepsWritten r v
  | loadIn k bs => exact c.setInput_keepsWritten bs
  | read k r => exact fun _ h => h
  | reset => exact absurd rfl hr

/-- Settles O15: the line's own context keeps its `written` bits, and every other context is as it was. -/
theorem writtenBitsOnlySet : Obligations.WrittenBitsOnlySet := by
  unfold Obligations.WrittenBitsOnlySet
  intro s t l rest k c hl hr hc h
  obtain ⟨j, hj⟩ := HostLine.ctx?_of_ne_reset hr
  obtain ⟨d, hd, -, rfl⟩ := step_next_line hl hj h
  by_cases hkj : k = j
  · subst hkj
    obtain rfl : c = d := Option.some.inj (hc.symm.trans hd)
    exact ⟨_, State.afterLine_ctx_same hd l rest, HostLine.ctxAfter_keepsWritten hr s.sel s.cap c⟩
  · exact ⟨c, (State.afterLine_ctx_ne hkj s l rest d).trans hc, fun _ h => h⟩

/-- A reaction leaves SEL or takes it from UNINIT to `probe(CAP)` (spec R260). -/
theorem Reaction.selAfter_cases (q : Reaction) (sel : Selector) (cap : BitVec 2) :
    q.selAfter sel cap = sel ∨ (sel = .uninit ∧ q.selAfter sel cap = probe cap) := by
  cases q with
  | idle => exact .inl rfl
  | act e crc =>
    cases crc with
    | false => exact .inl rfl
    | true => by_cases h : sel = .uninit <;> simp [Reaction.selAfter, h]

theorem HostLine.selAfter_cases {l : HostLine} (hr : l ≠ .reset) (sel : Selector) (cap : BitVec 2) (c : Context) :
    l.selAfter sel cap c = sel ∨ (sel = .uninit ∧ l.selAfter sel cap c = probe cap) := by
  cases l with
  | command k cw => exact Reaction.selAfter_cases _ sel cap
  | set | loadIn | read => exact .inl rfl
  | reset => exact absurd rfl hr

/-- Settles O30, by the two things a line can do to SEL. -/
theorem selectorWrittenOnce : Obligations.SelectorWrittenOnce := by
  unfold Obligations.SelectorWrittenOnce
  intro s t l rest hl hr h
  obtain ⟨k, hk⟩ := HostLine.ctx?_of_ne_reset hr
  obtain ⟨c, -, -, rfl⟩ := step_next_line hl hk h
  rcases HostLine.selAfter_cases hr s.sel s.cap c with hsel | ⟨hu, hsel⟩
  · exact ⟨fun _ => hsel, fun hu => .inl (hsel.trans hu)⟩
  · exact ⟨fun hn => absurd hu hn, fun _ => .inr hsel⟩

end Sys2Proof.Machine
end

/-! SUPPORT. The value under a clear `written` bit decides nothing (spec R36): contexts that agree react alike, and
agree again after every line. -/
section
namespace Sys2Proof.Machine

section Agreement
variable {c c' : Context} (h : c.Agrees c')
include h

theorem Context.Agrees.isWritten (r : Source) : c.isWritten r = c'.isWritten r := by
  cases r with
  | op r => exact (h.op r).1
  | res r => exact (h.res r).1
  | input => exact h.inBuf.1

theorem Context.Agrees.firstUnwritten (reads : List Source) : c.firstUnwritten reads = c'.firstUnwritten reads := by
  simp [Context.firstUnwritten, h.isWritten]

/-- What is written holds the same. -/
theorem Context.Agrees.sameAt {r : Source} (hw : c.isWritten r = true) : c.SameAt c' r := by
  cases r with
  | op r => exact (h.op r).2 hw
  | res r => exact (h.res r).2 hw
  | input => exact h.inBuf.2 hw

theorem Context.Agrees.answer (q : Reaction) : c.answer q = c'.answer q := by
  rw [Context.answer, Context.answer, Context.faulted, Context.faulted, h.fault]

end Agreement

/-- Whether a command evaluates the CRC32C step is decided by what it reads (spec R260). -/
theorem usesCrc_congr {i : Instr} {c c' : Context} (h : ∀ r ∈ readsOf i, c.SameAt c' r) :
    usesCrc i c = usesCrc i c' := by
  cases i with
  | hash128Crc | hash128CrcSeed =>
    have hm : c.inBuf.cells = c'.inBuf.cells := h .input (by simp [readsOf])
    rw [usesCrc, usesCrc, Context.len, Context.len, hm]
  | _ => rfl

/-- The effect of a command on the same reads, SEL and CAP is the same. -/
theorem effectOf_congr_same {i : Instr} {c c' : Context} (h : ∀ r ∈ readsOf i, c.SameAt c' r) (sel : Selector)
    (cap : BitVec 2) : effectOf sel cap c i = effectOf sel cap c' i := by
  by_cases hsel : i = .rdsel
  · subst hsel; rfl
  · by_cases hcap : i = .rdcap
    · subst hcap; rfl
    · exact effectOf_congr hsel hcap h sel sel cap cap

section Reactions
variable {c c' : Context} (h : c.Agrees c') (sel : Selector) (cap : BitVec 2)
include h

theorem Context.Agrees.ruleReaction (i : Instr) : c.ruleReaction sel cap i = c'.ruleReaction sel cap i := by
  unfold Context.ruleReaction
  rw [← h.firstUnwritten]
  cases hw : c.firstUnwritten (readsOf i) with
  | some r => rfl
  | none =>
    have hsame : ∀ r ∈ readsOf i, c.SameAt c' r := fun r hr => h.sameAt (Context.firstUnwritten_eq_none.1 hw r hr)
    simp only [effectOf_congr_same hsame, usesCrc_congr hsame]

theorem Context.Agrees.commandReaction (i : Instr) : c.commandReaction sel cap i = c'.commandReaction sel cap i := by
  rw [Context.commandReaction, Context.commandReaction, h.ruleReaction, h.answer]

theorem Context.Agrees.wordReaction (cw : Word32) : c.wordReaction sel cap cw = c'.wordReaction sel cap cw := by
  unfold Context.wordReaction
  cases decode cw with
  | ok i => exact h.commandReaction sel cap i
  | error e => exact h.answer _

end Reactions

theorem Reg.Agrees.toHost {r r' : Reg} (h : r.Agrees r') : r.toHost = r'.toHost := by
  cases hw : r.written with
  | false => simp [Reg.toHost, ← h.1, hw]
  | true => simp [Reg.toHost, ← h.1, hw, h.2 hw]

/-- What `READ` returns (spec R91). -/
theorem Context.Agrees.hostValue {c c' : Context} (h : c.Agrees c') (r : HostReg) : c.hostValue r = c'.hostValue r := by
  cases r with
  | operand r => exact (h.op r).toHost
  | result r => exact (h.res r).toHost
  | inBuf | len =>
    cases hw : c.inBuf.written with
    | false => simp [Context.hostValue, ← h.inBuf.1, hw]
    | true => simp [Context.hostValue, ← h.inBuf.1, hw, Context.len, h.inBuf.2 hw]
  | fault => simp [Context.hostValue, h.fault]
  | faultInfo => simp [Context.hostValue, h.faultInfo]

theorem Reg.Agrees.refl (r : Reg) : r.Agrees r := ⟨rfl, fun _ => rfl⟩

section Updates
variable {c c' : Context} (h : c.Agrees c')
include h

theorem Context.Agrees.setOpReg (r : OpReg) (v : Word64) : (c.setOpReg r v).Agrees (c'.setOpReg r v) where
  op := fun q => by
    by_cases hq : q = r
    · simpa [hq] using Reg.Agrees.refl _
    · simpa [hq] using h.op q
  res := by simpa using h.res
  inBuf := by simpa using h.inBuf
  fault := by simpa using h.fault
  faultInfo := by simpa using h.faultInfo
  cmdIndex := by simpa using h.cmdIndex

theorem Context.Agrees.setInput (bs : List Byte) : (c.setInput bs).Agrees (c'.setInput bs) where
  op := by simpa using h.op
  res := by simpa using h.res
  inBuf := ⟨rfl, fun _ => rfl⟩
  fault := h.fault
  faultInfo := h.faultInfo
  cmdIndex := h.cmdIndex

theorem Context.Agrees.advance : c.advance.Agrees c'.advance where
  op := by simpa using h.op
  res := by simpa using h.res
  inBuf := h.inBuf
  fault := h.fault
  faultInfo := h.faultInfo
  cmdIndex := congrArg (· + 1) h.cmdIndex

theorem Context.Agrees.setResults (d : Digest) : (c.setResults d).Agrees (c'.setResults d) where
  op := by simpa using h.op
  res := fun r => by cases r <;> exact Reg.Agrees.refl _
  inBuf := h.inBuf
  fault := h.fault
  faultInfo := h.faultInfo
  cmdIndex := h.cmdIndex

theorem Context.Agrees.raise (code : FaultCode) (info : Word64) : (c.raise code info).Agrees (c'.raise code info) where
  op := by simpa using h.op
  res := by simpa using h.res
  inBuf := h.inBuf
  fault := rfl
  faultInfo := rfl
  cmdIndex := h.cmdIndex

theorem Context.Agrees.react (q : Reaction) : (c.react q).Agrees (c'.react q) := by
  cases q with
  | idle => exact h
  | act e crc =>
    cases e with
    | digest d => exact (h.setResults d).advance
    | move dst v => exact (h.setOpReg dst v).advance
    | fault code info => exact h.raise code info

end Updates

theorem Context.reset_agrees : Context.reset.Agrees Context.reset where
  op := fun _ => Reg.Agrees.refl _
  res := fun _ => Reg.Agrees.refl _
  inBuf := ⟨rfl, fun _ => rfl⟩
  fault := rfl
  faultInfo := rfl
  cmdIndex := rfl

section Lines
variable {c c' : Context} (h : c.Agrees c') (sel : Selector) (cap : BitVec 2) (l : HostLine)
include h

theorem HostLine.ctxAfter_agrees : (l.ctxAfter sel cap c).Agrees (l.ctxAfter sel cap c') := by
  cases l with
  | command k cw =>
    simp only [HostLine.ctxAfter, h.wordReaction sel cap cw]
    exact h.react _
  | set k r v => exact h.setOpReg r v
  | loadIn k bs => exact h.setInput bs
  | read k r => exact h
  | reset => exact Context.reset_agrees

theorem HostLine.selAfter_agrees : l.selAfter sel cap c = l.selAfter sel cap c' := by
  cases l with
  | command k cw => simp only [HostLine.selAfter, h.wordReaction sel cap cw]
  | set | loadIn | read | reset => rfl

theorem HostLine.readOutAfter_agrees (out : Option HostValue) : l.readOutAfter out c = l.readOutAfter out c' := by
  cases l with
  | read k r => exact h.hostValue r
  | command | set | loadIn | reset => rfl

end Lines

section Lists
variable {α β : Type} {R : α → β → Prop}

/-- Related lists have related elements at every position, or none in both. -/
theorem forall₂_getElem? {l : List α} {l' : List β} (h : List.Forall₂ R l l') (k : Nat) :
    (l[k]? = none ∧ l'[k]? = none) ∨ ∃ a b, l[k]? = some a ∧ l'[k]? = some b ∧ R a b := by
  induction h generalizing k with
  | nil => exact .inl ⟨rfl, rfl⟩
  | @cons a b l l' hab hl ih =>
    cases k with
    | zero => exact .inr ⟨a, b, rfl, rfl, hab⟩
    | succ k => simpa using ih k

/-- Related elements put in the same place keep lists related. -/
theorem forall₂_set {l : List α} {l' : List β} (h : List.Forall₂ R l l') (k : Nat) {a : α} {b : β} (hab : R a b) :
    List.Forall₂ R (l.set k a) (l'.set k b) := by
  induction h generalizing k with
  | nil => exact .nil
  | cons hxy hl ih =>
    cases k with
    | zero => exact .cons hab hl
    | succ k => exact .cons hxy (ih k)

end Lists

section States
variable {s s' : State} (h : s.Agrees s')
include h

theorem State.Agrees.afterLine {c c' : Context} (hc : c.Agrees c') (l : HostLine) (rest : List HostLine) (k : Nat) :
    (s.afterLine l rest k c).Agrees (s'.afterLine l rest k c') where
  ctxs := by
    simp only [State.afterLine, h.sel, h.cap]
    exact forall₂_set h.ctxs k (HostLine.ctxAfter_agrees hc s'.sel s'.cap l)
  sel := by simp only [State.afterLine, h.sel, h.cap, HostLine.selAfter_agrees hc]
  cap := h.cap
  cur := by simp only [State.afterLine, h.cur]
  inputs := rfl
  readOut := by simp only [State.afterLine, h.readOut, HostLine.readOutAfter_agrees hc]

theorem State.Agrees.resetCore (rest : List HostLine) :
    (State.resetCore { s with inputs := rest }).Agrees (State.resetCore { s' with inputs := rest }) where
  ctxs := by
    simp only [State.resetCore_ctxs, h.ctxs.length_eq]
    exact List.forall₂_same.2 fun c hc => List.eq_of_mem_replicate hc ▸ Context.reset_agrees
  sel := rfl
  cap := h.cap
  cur := h.cur
  inputs := rfl
  readOut := h.readOut

/-- A line of one context answers alike. -/
theorem State.Agrees.step_line {l : HostLine} {rest : List HostLine} {k : Nat} (hl : s.inputs = l :: rest)
    (hk : l.ctx? = some k) : OutcomesAgree (step s) (step s') := by
  rw [step_eq_hostAct hl hk, step_eq_hostAct (h.inputs ▸ hl) hk]
  rcases forall₂_getElem? h.ctxs k with ⟨hn, hn'⟩ | ⟨c, c', hc, hc', hcc⟩
  · rw [State.hostAct_none hn, State.hostAct_none hn']
    exact .fault _
  · rw [State.hostAct_some hc, State.hostAct_some hc']
    split
    · exact .refused _
    · exact .next (h.afterLine hcc l rest k)

end States

/-- Settles O36, by cases on the next line: none, the reset, or a line of one context. -/
theorem unwrittenValuesNeverMatter : Obligations.UnwrittenValuesNeverMatter := by
  unfold Obligations.UnwrittenValuesNeverMatter
  intro s s' h
  cases hl : s.inputs with
  | nil =>
    rw [step, step, ← h.inputs, hl]
    exact .next h
  | cons l rest =>
    by_cases hr : l = .reset
    · subst hr
      rw [step_cons hl, step_cons (h.inputs ▸ hl)]
      exact .next (h.resetCore rest)
    · obtain ⟨k, hk⟩ := HostLine.ctx?_of_ne_reset hr
      exact h.step_line hl hk

end Sys2Proof.Machine
end

/-! SUPPORT. What a command may change (spec R95–R97, R143, R260, R295), and what a successful one has written. -/
section
namespace Sys2Proof.Machine

/-- The effects a command can have: a word is moved by `MOV` to its destination, and result words are written by every
other command (spec R96, R143). -/
def Effect.AdmittedBy (i : Instr) : Effect → Prop
  | .digest _ => ∀ dst src, i ≠ .mov dst src
  | .move dst _ => ∃ src, i = .mov dst src
  | .fault _ _ => True

theorem effectOf_admitted (sel : Selector) (cap : BitVec 2) (c : Context) (i : Instr) :
    (effectOf sel cap c i).AdmittedBy i := by
  cases he : effectOf sel cap c i with
  | digest d =>
    rintro dst src rfl
    cases he
  | move dst v => exact effectOf_eq_move he
  | fault code info => trivial

theorem Context.commandReaction_admitted {sel : Selector} {cap : BitVec 2} {c : Context} {i : Instr} {e : Effect}
    {crc : Bool} (h : c.commandReaction sel cap i = .act e crc) : e.AdmittedBy i := by
  rcases Context.commandReaction_eq_act h with ⟨-, rfl, -⟩ | ⟨r, rfl, -⟩ | ⟨rfl, -⟩
  · trivial
  · trivial
  · exact effectOf_admitted sel cap c i

/-- What the command `i` leaves of a context: IN, every operand and seed register but the destination of `MOV`,
RES0–RES3 under `MOV`, and either FAULT and FAULT_INFO or everything else. -/
structure Context.Framed (i : Instr) (c c' : Context) : Prop where
  inBuf : c'.inBuf = c.inBuf
  op : ∀ r : OpReg, (∀ src, i ≠ .mov r src) → c'.opReg r = c.opReg r
  res : ∀ dst src, i = .mov dst src → ∀ r : ResReg, c'.resReg r = c.resReg r
  fault : (c'.fault = c.fault ∧ c'.faultInfo = c.faultInfo) ∨
    c' = { c with fault := c'.fault, faultInfo := c'.faultInfo }

theorem Context.Framed.refl (i : Instr) (c : Context) : c.Framed i c where
  inBuf := rfl
  op := fun _ _ => rfl
  res := fun _ _ _ _ => rfl
  fault := .inl ⟨rfl, rfl⟩

theorem Context.apply_framed {i : Instr} {e : Effect} (h : e.AdmittedBy i) (c : Context) : c.Framed i (c.apply e) := by
  cases e with
  | digest d =>
    exact ⟨rfl, fun r _ => by simp [Context.apply], fun dst src hm => absurd hm (h dst src), .inl ⟨rfl, rfl⟩⟩
  | move dst v =>
    obtain ⟨src, rfl⟩ := h
    refine ⟨by simp [Context.apply], fun r hr => ?_, fun _ _ _ r => by simp [Context.apply],
      .inl (by simp [Context.apply])⟩
    have hne : r ≠ dst := by
      rintro rfl
      exact hr src rfl
    simp [Context.apply, hne]
  | fault code info =>
    exact ⟨rfl, fun r _ => by simp [Context.apply], fun _ _ _ r => by simp [Context.apply], .inr rfl⟩

theorem Context.commandReaction_framed (sel : Selector) (cap : BitVec 2) (c : Context) (i : Instr) :
    c.Framed i (c.react (c.commandReaction sel cap i)) := by
  cases hq : c.commandReaction sel cap i with
  | idle => exact .refl i c
  | act e crc => exact Context.apply_framed (Context.commandReaction_admitted hq) c

/-- A command that does not evaluate the CRC32C step leaves SEL (spec R260). -/
theorem Context.commandReaction_selAfter {c : Context} {i : Instr} (h : usesCrc i c = false) (sel : Selector)
    (cap : BitVec 2) : (c.commandReaction sel cap i).selAfter sel cap = sel := by
  cases hq : c.commandReaction sel cap i with
  | idle => rfl
  | act e crc =>
    have hcrc : crc = false := by
      rcases Context.commandReaction_eq_act hq with ⟨-, -, hcrc⟩ | ⟨-, -, hcrc⟩ | ⟨-, hcrc⟩
      · exact hcrc
      · exact hcrc
      · exact hcrc.trans h
    rw [hcrc]
    rfl

/-- Settles O11: the executing context changes as its reaction allows, and nothing else is written but SEL. -/
theorem commandFrame : Obligations.CommandFrame := by
  unfold Obligations.CommandFrame
  intro i s t h
  obtain ⟨d, hd, rfl⟩ := exec_next_react h
  refine ⟨rfl, rfl, rfl, rfl, by simp [State.react], fun k hk => List.getElem?_set_ne hk.symm,
    fun hcrc => Context.commandReaction_selAfter (hcrc d hd) _ _, fun k c c' hc hc' => ?_⟩
  have hframe : c.Framed i c' := by
    by_cases hk : k = s.cur
    · subst hk
      obtain rfl : c = d := Option.some.inj (hc.symm.trans hd)
      rw [State.react, List.getElem?_set_self (List.getElem?_eq_some_iff.1 hc).1] at hc'
      cases hc'
      exact c.commandReaction_framed s.sel s.cap i
    · rw [State.react, List.getElem?_set_ne (Ne.symm hk), hc] at hc'
      cases hc'
      exact .refl i c
  obtain ⟨hin, hop, hres, hfault⟩ := hframe
  exact ⟨fun a => by rw [hin], hin, hop, hres, hfault⟩

/-! ### Completion -/

/-- A rule faults only outside its bounds (spec R293). -/
theorem effectOf_ne_fault {i : Instr} {c : Context} (hi : i.wellFormed = true) (hr : c.InRange i) (sel : Selector)
    (cap : BitVec 2) (code : FaultCode) (info : Word64) : effectOf sel cap c i ≠ .fault code info := by
  cases i with
  | readle64 | readle32 | weakhash32 =>
    have hb := hr _ rfl
    simp [effectOf, Context.readEffect, Context.inBounds, hb]
  | rotr32 r =>
    have hlt : r.toNat < 32 := by simpa [Instr.wellFormed] using hi
    simp [effectOf, hlt]
  | _ => exact fun h => by cases h

/-- An effect without a fault advances the index by one and leaves FAULT. -/
theorem Context.apply_of_ne_fault {e : Effect} (he : ∀ code info, e ≠ .fault code info) (c : Context) :
    (c.apply e).fault = c.fault ∧ (c.apply e).cmdIndex = c.cmdIndex + 1 := by
  cases e with
  | digest d => exact ⟨rfl, rfl⟩
  | move dst v => simp [Context.apply]
  | fault code info => exact absurd rfl (he code info)

/-- Settles O27: in bounds the rule has no fault to record. -/
theorem suppliedCommandsComplete : Obligations.SuppliedCommandsComplete := by
  unfold Obligations.SuppliedCommandsComplete
  intro i s c hi hready hs hr
  obtain ⟨hf, hidx⟩ := Context.apply_of_ne_fault (effectOf_ne_fault hi hr s.sel s.cap) c
  exact ⟨_, _, exec_supplied hready hs, State.ctx?_afterRule hready.1 i, hf.trans hready.2, hidx⟩

/-- A digest is 0 in the words that the command's rule does not name (spec R97, third column). -/
def Digest.ZeroFrom (n : Nat) (d : Digest) : Prop := (n ≤ 1 → d.r1 = 0#64) ∧ (n ≤ 2 → d.r2 = 0#64 ∧ d.r3 = 0#64)

theorem Digest.word_zeroFrom (v : Word64) : (Digest.word v).ZeroFrom 1 := ⟨fun _ => rfl, fun _ => ⟨rfl, rfl⟩⟩
theorem Digest.pair_zeroFrom (p : Word64 × Word64) : (Digest.pair p).ZeroFrom 2 :=
  ⟨fun h => absurd h (by decide), fun _ => ⟨rfl, rfl⟩⟩
theorem Digest.zeroFrom_four (d : Digest) : d.ZeroFrom 4 :=
  ⟨fun h => absurd h (by decide), fun h => absurd h (by decide)⟩

/-- A rule puts 0 in the result words that it does not name (spec R96, R97). -/
theorem effectOf_digest_zeroFrom {sel : Selector} {cap : BitVec 2} {c : Context} {i : Instr} {d : Digest}
    (h : effectOf sel cap c i = .digest d) : d.ZeroFrom (resultWords i) := by
  cases i with
  | mov dst src => cases h
  | hash256Crc | hash256CrcSeed => exact d.zeroFrom_four
  | murmur128 | murmur128Seed | hash128 | hash128Seed | hash128Crc | hash128CrcSeed =>
    obtain rfl := Effect.digest.inj h
    exact Digest.pair_zeroFrom _
  | weakhash32 =>
    simp only [effectOf, Context.readEffect] at h
    split at h <;> cases h
    exact Digest.pair_zeroFrom _
  | readle64 | readle32 =>
    simp only [effectOf, Context.readEffect] at h
    split at h <;> cases h
    exact Digest.word_zeroFrom _
  | rotr32 r =>
    simp only [effectOf] at h
    split at h <;> cases h
    exact Digest.word_zeroFrom _
  | _ =>
    obtain rfl := Effect.digest.inj h
    exact Digest.word_zeroFrom _

/-- A command that leaves a ready context without a fault ran its rule, and the rule did not fault. -/
theorem exec_success {i : Instr} {s t : State} {c c' : Context} (hr : s.Ready c) (h : exec i s = .next t)
    (hc' : t.ctx? = some c') (hf : c'.fault = faultNone) :
    c' = c.apply (effectOf s.sel s.cap c i) ∧ ∀ code info, effectOf s.sel s.cap c i ≠ .fault code info := by
  have hraise : ∀ code info, (s.raise c code info).ctx? ≠ some c' := fun code info hctx => by
    obtain rfl := Option.some.inj ((State.ctx?_setCtx hr.1 _).symm.trans hctx)
    exact code.code_ne_none hf
  have hsame : ∀ d, s.ctx? = some d → d = c := fun d hd => Option.some.inj (hd.symm.trans hr.1)
  rcases exec_next h with ⟨d, hd, hdf, -⟩ | ⟨d, hd, -, rfl⟩ | ⟨d, r, hd, -, -, rfl⟩ | ⟨d, hd, -, -, rfl⟩
  · exact absurd hr.2 (hsame d hd ▸ hdf)
  · exact absurd (hsame d hd.1 ▸ hc') (hraise _ _)
  · exact absurd (hsame d hd.1 ▸ hc') (hraise _ _)
  · obtain rfl := hsame d hd.1
    obtain rfl := Option.some.inj ((State.ctx?_afterRule hr.1 i).symm.trans hc')
    exact ⟨rfl, fun code info he => code.code_ne_none (by simpa [he, Context.apply] using hf)⟩

/-- Settles O28, by the effect of the rule. -/
theorem successWritesResults : Obligations.SuccessWritesResults := by
  unfold Obligations.SuccessWritesResults
  intro i s t c c' hready h hc' hf
  obtain ⟨rfl, hne⟩ := exec_success hready h hc' hf
  refine ⟨(Context.apply_of_ne_fault hne c).2, ?_, fun hmov => ?_⟩
  · rintro dst src rfl r
    simp [effectOf, Context.apply]
  · cases he : effectOf s.sel s.cap c i with
    | digest d =>
      obtain ⟨h1, h23⟩ := effectOf_digest_zeroFrom he
      exact ⟨fun r => by simp [Context.apply], h1, h23⟩
    | move dst v =>
      obtain ⟨src, rfl⟩ := effectOf_eq_move he
      exact absurd rfl (hmov dst src)
    | fault code info => exact absurd he (hne code info)

end Sys2Proof.Machine
end

/-! SUPPORT. What each kind of line does to the context it names (spec R80, R91, R320). -/
section
namespace Sys2Proof.Machine

/-- Settles O39: the memory of `LOADIN` is canonical, and reading it gives back the bytes. -/
theorem loadInSetsInput : Obligations.LoadInSetsInput := by
  unfold Obligations.LoadInSetsInput
  intro s k c bs rest hl hc
  refine ⟨fun hb => ⟨c.setInput bs, ?_, ?_⟩, fun hb => ?_⟩
  · exact (step_eq_afterLine hl rfl hc).trans (if_neg fun h => Nat.not_le.2 hb (of_decide_eq_true h))
  · exact ⟨Memory.length_ofBytes bs, Memory.read_ofBytes bs, Memory.bytes_ofBytes bs, Memory.wf_ofBytes hb, rfl,
      c.setInput_opReg bs, c.setInput_resReg bs, rfl, rfl, rfl⟩
  · exact (step_eq_afterLine hl rfl hc).trans (if_pos (decide_eq_true hb))

/-- Settles O40, by the fields of a register write. -/
theorem setWritesRegister : Obligations.SetWritesRegister := by
  unfold Obligations.SetWritesRegister
  intro s k c r v rest hl hc
  refine ⟨c.setOpReg r v, step_eq_afterLine hl rfl hc, ?_, fun q hq => ?_, c.setOpReg_resReg r v, c.setOpReg_inBuf r v,
    c.setOpReg_fault r v, c.setOpReg_faultInfo r v, c.setOpReg_cmdIndex r v⟩
  · rw [Context.setOpReg_opReg, if_pos rfl]
    rfl
  · rw [Context.setOpReg_opReg, if_neg hq]

/-- A `READ` changes the port only. -/
theorem step_read {s : State} {k : Nat} {c : Context} {reg : HostReg} {rest : List HostLine}
    (hl : s.inputs = .read k reg :: rest) (hc : s.ctxs[k]? = some c) :
    step s = .next { s with inputs := rest, readOut := c.hostValue reg } := by
  refine (step_eq_afterLine hl rfl hc).trans (congrArg Host.Outcome.next ?_)
  simp only [State.afterLine, HostLine.ctxAfter, State.set_ctxs_self hc]
  rfl

/-- Settles O41: the port holds what the register shows to the host. -/
theorem readReturnsRegister : Obligations.ReadReturnsRegister := by
  unfold Obligations.ReadReturnsRegister
  intro s k c reg rest hl hc
  refine ⟨c.hostValue reg, step_read hl hc, ?_, ?_, ?_, ?_, ?_, ?_⟩
  · rintro r rfl
    rfl
  · rintro r rfl
    rfl
  all_goals
    rintro rfl
    rfl

/-- A word of the opcode table that decodes fits one command word, which decodes to the same command (spec R80). -/
theorem decode_wordOf {nbits w : Nat} {i : Instr} (h : decodeTableWord nbits w = some i) :
    decode (wordOf nbits w) = .ok i := by
  unfold decodeTableWord at h
  by_cases hlt : w % 2 ^ nbits < 2 ^ 32
  · simp only [hlt, if_true] at h
    rw [wordOf]
    cases hd : decode (BitVec.ofNat 32 (w % 2 ^ nbits)) with
    | ok j => simpa [hd] using h
    | error e => simp [hd] at h
  · simp only [hlt, if_false, reduceCtorEq] at h

/-- A presented word that decodes runs its command. -/
theorem State.presentWord_of_decode {cw : Word32} {i : Instr} (h : decode cw = .ok i) (s : State) :
    s.presentWord cw = exec i s := by
  rw [State.presentWord, h]

/-- Settles O5: the line is taken, and its word runs the command it decodes to. -/
theorem stepRunsDecodedCommand : Obligations.StepRunsDecodedCommand := by
  unfold Obligations.StepRunsDecodedCommand
  refine ⟨fun s k cw rest i hl hd => ?_, fun s nbits w i hd => ?_⟩
  · rw [step_cons hl]
    exact State.presentWord_of_decode hd _
  · exact State.presentWord_of_decode (decode_wordOf hd) s

/-- Settles O8: every context after the reset line is a context at reset. -/
theorem resetLineResetsEveryContext : Obligations.ResetLineResetsEveryContext := by
  unfold Obligations.ResetLineResetsEveryContext
  intro s rest hl
  refine ⟨State.resetCore { s with inputs := rest }, step_cons hl, rfl, rfl, by simp, rfl, fun c hc => ?_⟩
  rw [List.eq_of_mem_replicate hc]
  exact ⟨rfl, rfl, rfl, Context.reset_isWritten⟩

end Sys2Proof.Machine
end

/-! SUPPORT. The little-endian value of some bytes (spec R61, R110, R111). -/
section
namespace Sys2Proof.Machine

/-- A byte placed above a value of at most `k` bits adds its multiple of 2^k, and the sum has at most `k + 8` bits. -/
theorem toNat_or_byte {w k n : Nat} {v : BitVec w} (b : Byte) (hk : k + 8 ≤ w) (hv : v.toNat = n) (hn : n < 2 ^ k) :
    (v ||| b.setWidth w <<< k).toNat = n + b.toNat * 2 ^ k ∧ n + b.toNat * 2 ^ k < 2 ^ (k + 8) := by
  have hsum : n + b.toNat * 2 ^ k < 2 ^ (k + 8) := calc
    n + b.toNat * 2 ^ k < (b.toNat + 1) * 2 ^ k := by rw [Nat.succ_mul]; omega
    _ ≤ 2 ^ 8 * 2 ^ k := Nat.mul_le_mul_right _ b.isLt
    _ = 2 ^ (k + 8) := by rw [← Nat.pow_add, Nat.add_comm]
  have hb : (b.setWidth w <<< k).toNat = b.toNat * 2 ^ k := by
    rw [BitVec.toNat_shiftLeft, BitVec.toNat_setWidth_of_le (by omega), Nat.shiftLeft_eq, Nat.mod_eq_of_lt]
    exact (Nat.le_add_left _ n).trans_lt (hsum.trans_le (Nat.pow_le_pow_right two_pos hk))
  refine ⟨?_, hsum⟩
  rw [BitVec.toNat_or, hv, hb, ← Nat.shiftLeft_eq, Nat.lor_comm, ← Nat.shiftLeft_add_eq_or_of_lt hn, Nat.add_comm]

/-- Four bytes, least significant first. -/
theorem le32_toNat (b0 b1 b2 b3 : Byte) :
    (le32 b0 b1 b2 b3).toNat = b0.toNat + b1.toNat * 2 ^ 8 + b2.toNat * 2 ^ 16 + b3.toNat * 2 ^ 24 := by
  have h0 : (b0.setWidth 32).toNat = b0.toNat := BitVec.toNat_setWidth_of_le (by decide)
  obtain ⟨h1, l1⟩ := toNat_or_byte b1 (by decide) h0 b0.isLt
  obtain ⟨h2, l2⟩ := toNat_or_byte b2 (by decide) h1 l1
  exact (toNat_or_byte b3 (by decide) h2 l2).1

/-- Eight bytes, least significant first. -/
theorem le64_toNat (b0 b1 b2 b3 b4 b5 b6 b7 : Byte) :
    (le64 b0 b1 b2 b3 b4 b5 b6 b7).toNat = b0.toNat + b1.toNat * 2 ^ 8 + b2.toNat * 2 ^ 16 + b3.toNat * 2 ^ 24 +
      b4.toNat * 2 ^ 32 + b5.toNat * 2 ^ 40 + b6.toNat * 2 ^ 48 + b7.toNat * 2 ^ 56 := by
  have h0 : (b0.setWidth 64).toNat = b0.toNat := BitVec.toNat_setWidth_of_le (by decide)
  obtain ⟨h1, l1⟩ := toNat_or_byte b1 (by decide) h0 b0.isLt
  obtain ⟨h2, l2⟩ := toNat_or_byte b2 (by decide) h1 l1
  obtain ⟨h3, l3⟩ := toNat_or_byte b3 (by decide) h2 l2
  obtain ⟨h4, l4⟩ := toNat_or_byte b4 (by decide) h3 l3
  obtain ⟨h5, l5⟩ := toNat_or_byte b5 (by decide) h4 l4
  obtain ⟨h6, l6⟩ := toNat_or_byte b6 (by decide) h5 l5
  exact (toNat_or_byte b7 (by decide) h6 l6).1

/-- The low half of an eight-byte value is the value of its first four bytes. -/
theorem le64_setWidth_32 (b0 b1 b2 b3 b4 b5 b6 b7 : Byte) :
    (le64 b0 b1 b2 b3 b4 b5 b6 b7).setWidth 32 = le32 b0 b1 b2 b3 := by
  apply BitVec.eq_of_toNat_eq
  have hlt := (le32 b0 b1 b2 b3).isLt
  rw [BitVec.toNat_setWidth, le64_toNat]
  rw [le32_toNat] at hlt ⊢
  omega

/-- Settles O44, by the sums of the bytes. -/
theorem littleEndianReads : Obligations.LittleEndianReads := by
  unfold Obligations.LittleEndianReads
  intro S o
  refine ⟨?_, ?_, le64_setWidth_32 ..⟩
  · simp [ByteSeq.rd64, le64_toNat, Finset.sum_range_succ]
  · simp [ByteSeq.rd32, le32_toNat, Finset.sum_range_succ]

end Sys2Proof.Machine
end

/-! SUPPORT. Every digest reads only inside its input (spec R60, R297(b)): what each read, loop and bucket answers is the
same for two sequences that agree inside their common length. -/
section
namespace Sys2Proof.Machine

/-! ### The counted loops, said once -/

/-- `k` steps over windows of `width` bytes, from offset `p` on: the shape of every loop of the algorithms (spec R327). -/
def chunkLoop {σ : Type} (width : Nat) (step : Nat → σ → σ) : Nat → Nat → σ → σ
  | 0, _, st => st
  | k + 1, p, st => chunkLoop width step k (p + width) (step p st)

/-- Loops whose steps agree on every window inside `n` bytes agree as long as they stay inside. -/
theorem chunkLoop_congr {σ : Type} {width n : Nat} {f g : Nat → σ → σ}
    (hfg : ∀ p st, p + width ≤ n → f p st = g p st) {k p : Nat} (hk : p + width * k ≤ n) (st : σ) :
    chunkLoop width f k p st = chunkLoop width g k p st := by
  induction k generalizing p st with
  | zero => rfl
  | succ k ih =>
    rw [Nat.mul_succ] at hk
    rw [chunkLoop, chunkLoop, hfg p st (by omega), ih (by omega)]

/-- One byte of the fold of spec R151. -/
def foldByte32 (S : ByteSeq) (i : Nat) (bc : Word32 × Word32) : Word32 × Word32 :=
  (bc.1 * C1 + S.sbyte i, bc.2 ^^^ (bc.1 * C1 + S.sbyte i))

/-! Each loop of the model is a `chunkLoop`, by comparing the two recursions as wholes. (Its own equation for `k + 1` is
costly: the kernel checks it by comparing the states before and after the step, so it evaluates the step on an open state.) -/
section Loops
variable (S : ByteSeq)

theorem foldBytes32_eq_chunkLoop : foldBytes32 S = chunkLoop 1 (foldByte32 S) := by delta foldBytes32 chunkLoop; rfl
theorem h32Loop_eq_chunkLoop : h32Loop S = chunkLoop 20 (h32Chunk S) := by delta h32Loop chunkLoop; rfl
theorem h64Loop_eq_chunkLoop : h64Loop S = chunkLoop 64 (chunk64 S) := by delta h64Loop chunkLoop; rfl
theorem murLoop_eq_chunkLoop : murLoop S = chunkLoop 16 (murStep S) := by delta murLoop chunkLoop; rfl
theorem crcGroups_eq_chunkLoop : crcGroups S = chunkLoop 240 (crcGroup S) := by delta crcGroups chunkLoop; rfl
theorem crcRemLoop_eq_chunkLoop : crcRemLoop S = chunkLoop 40 (crcRemChunk S) := by delta crcRemLoop chunkLoop; rfl
theorem h128Loop_eq_chunkLoop :
    h128Loop S = chunkLoop 128 fun p st => chunk64 S (p + 64) (chunk64 S p st) := by delta h128Loop chunkLoop; rfl
theorem h128Tail_eq_chunkLoop :
    h128Tail S = chunkLoop 32 fun t st => h128TailStep S (S.len - (t + 32)) st := by delta h128Tail chunkLoop; rfl

end Loops

/-- The third word of spec R152 lies inside the input: its offset is 0 below 8 bytes, else 4. -/
theorem middle_word_inside {n : Nat} (hlo : 5 ≤ n) (hhi : n ≤ 12) : ((n >>> 1) &&& 4) + 4 ≤ n :=
  (by decide : ∀ m ≤ 12, 5 ≤ m → ((m >>> 1) &&& 4) + 4 ≤ m) n hhi hlo

/-- The last 16-byte step of spec R203 ends inside the input. -/
theorem murSteps_inside {n : Nat} (hn : 16 < n) : 0 + 16 * murSteps n ≤ n := by
  rw [murSteps]
  omega

section Digests
namespace ByteSeq.AgreeInside
variable {S T : ByteSeq} (h : S.AgreeInside T)
include h

/-! ### The reads (spec R110–R112, R121, R251) -/

theorem n64_eq : S.n64 = T.n64 := congrArg (BitVec.ofNat 64) h.1
theorem n32_eq : S.n32 = T.n32 := congrArg (BitVec.ofNat 32) h.1
theorem lenMul_eq : lenMul S = lenMul T := by rw [lenMul, lenMul, h.n64_eq]

theorem byte_eq {i : Nat} (hi : i + 1 ≤ S.len) : S.byte i = T.byte i := h.2 i hi

theorem sbyte_eq {i : Nat} (hi : i + 1 ≤ S.len) : S.sbyte i = T.sbyte i :=
  congrArg (BitVec.signExtend 32) (h.byte_eq hi)

theorem rd64_eq {o : Nat} (ho : o + 8 ≤ S.len) : S.rd64 o = T.rd64 o := by
  unfold ByteSeq.rd64
  simp (disch := omega) only [h.byte_eq]

theorem rd32_eq {o : Nat} (ho : o + 4 ≤ S.len) : S.rd32 o = T.rd32 o := by
  unfold ByteSeq.rd32
  simp (disch := omega) only [h.byte_eq]

theorem weakHash32At_eq {o : Nat} (ho : o + 32 ≤ S.len) (a b : Word64) :
    weakHash32At S o a b = weakHash32At T o a b := by
  unfold weakHash32At
  simp (disch := omega) only [h.rd64_eq]

theorem scrambled_eq {o : Nat} (ho : o + 4 ≤ S.len) : scrambled S o = scrambled T o := by
  rw [scrambled, scrambled, h.rd32_eq ho]

/-- Without their first bytes the sequences still agree inside. -/
theorem suffix (p : Nat) : (S.suffix p).AgreeInside (T.suffix p) :=
  ⟨congrArg (· - p) h.1, fun i hi => h.2 (p + i) (Nat.add_lt_of_lt_sub' hi)⟩

/-- The pads hold the same bytes everywhere. -/
theorem pad240_eq : pad240 S = pad240 T := by
  unfold pad240
  refine congrArg (ByteSeq.mk 240) (funext fun i => ?_)
  rw [← h.1]
  split
  · next hi => exact h.2 i hi
  · rfl

/-! ### The 32-bit family (spec R150–R156) -/

theorem foldBytes32_eq {k i : Nat} (hk : i + k ≤ S.len) (bc : Word32 × Word32) :
    foldBytes32 S k i bc = foldBytes32 T k i bc := by
  rw [foldBytes32_eq_chunkLoop, foldBytes32_eq_chunkLoop]
  exact chunkLoop_congr (fun i bc hi => by rw [foldByte32, foldByte32, h.sbyte_eq hi]) (by omega) bc

theorem h32_0to4_eq : h32_0to4 S = h32_0to4 T := by
  rw [h32_0to4, h32_0to4, h.foldBytes32_eq (Nat.zero_add _).le, h.n32_eq, h.1]

theorem h32_5to12_eq (hlo : 5 ≤ S.len) (hhi : S.len ≤ 12) : h32_5to12 S = h32_5to12 T := by
  have hmid := h.rd32_eq (middle_word_inside hlo hhi)
  unfold h32_5to12
  simp (disch := omega) only [← h.1, h.n32_eq, hmid, h.rd32_eq]

theorem h32_13to24_eq (hlo : 13 ≤ S.len) : h32_13to24 S = h32_13to24 T := by
  unfold h32_13to24
  simp (disch := omega) only [← h.1, h.n32_eq, h.rd32_eq]

theorem h32Init_eq (hlo : 20 ≤ S.len) : h32Init S = h32Init T := by
  unfold h32Init
  simp (disch := omega) only [← h.1, h.n32_eq, h.scrambled_eq]

theorem h32Chunk_eq {p : Nat} (hp : p + 20 ≤ S.len) (st : H32) : h32Chunk S p st = h32Chunk T p st := by
  unfold h32Chunk
  simp (disch := omega) only [h.rd32_eq, h.scrambled_eq]

theorem h32Loop_eq {k p : Nat} (hk : p + 20 * k ≤ S.len) (st : H32) : h32Loop S k p st = h32Loop T k p st := by
  rw [h32Loop_eq_chunkLoop, h32Loop_eq_chunkLoop]
  exact chunkLoop_congr (fun _ st hp => h.h32Chunk_eq hp st) hk st

theorem h32_long_eq (hlo : 24 < S.len) : h32_long S = h32_long T := by
  rw [h32_long, h32_long, h.h32Init_eq (by omega), h.h32Loop_eq (by omega), h.1]

theorem hash32_eq : hash32 S = hash32 T := by
  unfold hash32
  rw [← h.1]
  split_ifs
  · exact h.h32_0to4_eq
  · exact h.h32_5to12_eq (by omega) (by omega)
  · exact h.h32_13to24_eq (by omega)
  · exact h.h32_long_eq (by omega)

/-! ### The 64-bit family (spec R170–R176) -/

theorem h64_8to16_eq (hlo : 8 ≤ S.len) : h64_8to16 S = h64_8to16 T := by
  unfold h64_8to16
  simp (disch := omega) only [← h.1, h.lenMul_eq, h.rd64_eq]

theorem h64_4to7_eq (hlo : 4 ≤ S.len) : h64_4to7 S = h64_4to7 T := by
  unfold h64_4to7
  simp (disch := omega) only [← h.1, h.lenMul_eq, h.n64_eq, h.rd32_eq]

theorem h64_1to3_eq (hlo : 0 < S.len) : h64_1to3 S = h64_1to3 T := by
  unfold h64_1to3
  simp (disch := omega) only [← h.1, h.n32_eq, h.byte_eq]

theorem h64_0to16_eq : h64_0to16 S = h64_0to16 T := by
  unfold h64_0to16
  rw [← h.1]
  split_ifs with h8 h4 h1
  · exact h.h64_8to16_eq h8
  · exact h.h64_4to7_eq h4
  · exact h.h64_1to3_eq h1
  · rfl

theorem h64_17to32_eq (hlo : 17 ≤ S.len) : h64_17to32 S = h64_17to32 T := by
  unfold h64_17to32
  simp (disch := omega) only [← h.1, h.lenMul_eq, h.rd64_eq]

theorem h64_33to64_eq (hlo : 33 ≤ S.len) : h64_33to64 S = h64_33to64 T := by
  unfold h64_33to64
  simp (disch := omega) only [← h.1, h.lenMul_eq, h.rd64_eq]

theorem h64Init_eq (hlo : 64 ≤ S.len) : h64Init S = h64Init T := by
  unfold h64Init
  simp (disch := omega) only [← h.1, h.n64_eq, h.rd64_eq, h.weakHash32At_eq]

theorem chunk64_eq {p : Nat} (hp : p + 64 ≤ S.len) (st : H64) : chunk64 S p st = chunk64 T p st := by
  unfold chunk64
  simp (disch := omega) only [h.rd64_eq, h.weakHash32At_eq]

theorem h64Loop_eq {k p : Nat} (hk : p + 64 * k ≤ S.len) (st : H64) : h64Loop S k p st = h64Loop T k p st := by
  rw [h64Loop_eq_chunkLoop, h64Loop_eq_chunkLoop]
  exact chunkLoop_congr (fun _ st hp => h.chunk64_eq hp st) hk st

theorem h64_long_eq (hlo : 64 < S.len) : h64_long S = h64_long T := by
  rw [h64_long, h64_long, h.h64Init_eq (by omega), h.h64Loop_eq (by omega), h.1]

theorem hash64_eq : hash64 S = hash64 T := by
  unfold hash64
  rw [← h.1]
  split_ifs
  · exact h.h64_0to16_eq
  · exact h.h64_17to32_eq (by omega)
  · exact h.h64_33to64_eq (by omega)
  · exact h.h64_long_eq (by omega)

/-! ### The Murmur hybrid (spec R200–R204) -/

theorem murShort_eq (lo hi : Word64) : murShort S lo hi = murShort T lo hi := by
  unfold murShort
  rw [h.h64_0to16_eq, ← h.1]
  split
  · next h8 => rw [h.rd64_eq h8]
  · rfl

theorem murInit_eq (hlo : 16 ≤ S.len) (lo hi : Word64) : murInit S lo hi = murInit T lo hi := by
  unfold murInit
  simp (disch := omega) only [← h.1, h.n64_eq, h.rd64_eq]

theorem murStep_eq {p : Nat} (hp : p + 16 ≤ S.len) (st : Mur) : murStep S p st = murStep T p st := by
  unfold murStep
  simp (disch := omega) only [h.rd64_eq]

theorem murLoop_eq {k p : Nat} (hk : p + 16 * k ≤ S.len) (st : Mur) : murLoop S k p st = murLoop T k p st := by
  rw [murLoop_eq_chunkLoop, murLoop_eq_chunkLoop]
  exact chunkLoop_congr (fun _ st hp => h.murStep_eq hp st) hk st

theorem cityMurmur_eq (lo hi : Word64) : cityMurmur S lo hi = cityMurmur T lo hi := by
  unfold cityMurmur
  rw [← h.1]
  split_ifs
  · rw [h.murShort_eq]
  · rw [h.murInit_eq (by omega), h.murLoop_eq (murSteps_inside (by omega))]

/-! ### The 256-bit CRC family (spec R250–R258) -/

theorem crcInit_eq (hlo : 192 ≤ S.len) (seed : Word32) : crcInit S seed = crcInit T seed := by
  unfold crcInit
  simp (disch := omega) only [h.n64_eq, h.rd64_eq]

theorem crcChunk_eq {q : Nat} (hq : q + 40 ≤ S.len) (r : Nat) (st : Crc) : crcChunk S q r st = crcChunk T q r st := by
  unfold crcChunk
  simp (disch := omega) only [h.rd64_eq]

theorem crcGroup_eq {q : Nat} (hq : q + 240 ≤ S.len) (st : Crc) : crcGroup S q st = crcGroup T q st := by
  unfold crcGroup
  simp (disch := omega) only [h.crcChunk_eq]

theorem crcGroups_eq {k q : Nat} (hk : q + 240 * k ≤ S.len) (st : Crc) : crcGroups S k q st = crcGroups T k q st := by
  rw [crcGroups_eq_chunkLoop, crcGroups_eq_chunkLoop]
  exact chunkLoop_congr (fun _ st hp => h.crcGroup_eq hp st) hk st

theorem crcRemChunk_eq {p : Nat} (hp : p + 40 ≤ S.len) (st : Crc) : crcRemChunk S p st = crcRemChunk T p st := by
  rw [crcRemChunk, crcRemChunk, h.crcChunk_eq hp]

theorem crcRemLoop_eq {k p : Nat} (hk : p + 40 * k ≤ S.len) (st : Crc) : crcRemLoop S k p st = crcRemLoop T k p st := by
  rw [crcRemLoop_eq_chunkLoop, crcRemLoop_eq_chunkLoop]
  exact chunkLoop_congr (fun _ st hp => h.crcRemChunk_eq hp st) hk st

theorem crcLast_eq (hlo : 40 ≤ S.len) (st : Crc) : crcLast S st = crcLast T st := by
  rw [crcLast, crcLast, ← h.1, h.crcChunk_eq (by omega)]

theorem crc256Long_eq (hlo : 240 ≤ S.len) (seed : Word32) : crc256Long S seed = crc256Long T seed := by
  unfold crc256Long
  simp (disch := omega) only [← h.1, h.crcInit_eq, h.crcGroups_eq, h.crcRemLoop_eq, h.crcLast_eq]

theorem hash256CrcSeeded_eq (seed : Word32) : hash256CrcSeeded S seed = hash256CrcSeeded T seed := by
  unfold hash256CrcSeeded
  rw [← h.1]
  split
  · next hlo => exact h.crc256Long_eq hlo seed
  · rw [h.pad240_eq, h.n32_eq]

theorem hash256Crc_eq : hash256Crc S = hash256Crc T := h.hash256CrcSeeded_eq 0

/-! ### The 128-bit family (spec R220–R228) -/

theorem h128Init_eq (hlo : 96 ≤ S.len) (lo hi : Word64) : h128Init S lo hi = h128Init T lo hi := by
  unfold h128Init
  simp (disch := omega) only [h.n64_eq, h.rd64_eq]

theorem h128Loop_eq {k p : Nat} (hk : p + 128 * k ≤ S.len) (st : H64) : h128Loop S k p st = h128Loop T k p st := by
  rw [h128Loop_eq_chunkLoop, h128Loop_eq_chunkLoop]
  exact chunkLoop_congr (fun p st hp => by rw [h.chunk64_eq (p := p) (by omega), h.chunk64_eq (by omega)]) hk st

theorem h128TailStep_eq {q : Nat} (hq : q + 32 ≤ S.len) (st : H64) : h128TailStep S q st = h128TailStep T q st := by
  unfold h128TailStep
  simp (disch := omega) only [h.rd64_eq, h.weakHash32At_eq]

/-- A tail window is 32 bytes that end inside the input, wherever it starts (spec R224). -/
theorem h128Tail_eq (hlo : 32 ≤ S.len) (k t : Nat) (st : H64) : h128Tail S k t st = h128Tail T k t st := by
  rw [h128Tail_eq_chunkLoop, h128Tail_eq_chunkLoop]
  exact chunkLoop_congr (fun t st _ => by rw [← h.1, h.h128TailStep_eq (by omega)]) le_rfl st

theorem h128_long_eq (hlo : 128 ≤ S.len) (lo hi : Word64) : h128_long S lo hi = h128_long T lo hi := by
  rw [h128_long, h128_long, h.h128Init_eq (by omega), h.h128Loop_eq (by omega), h.h128Tail_eq (by omega), h.1]

theorem hash128Seeded_eq (lo hi : Word64) : hash128Seeded S lo hi = hash128Seeded T lo hi := by
  unfold hash128Seeded
  rw [← h.1]
  split
  · exact h.cityMurmur_eq lo hi
  · exact h.h128_long_eq (by omega) lo hi

theorem hash128_eq : hash128 S = hash128 T := by
  unfold hash128
  rw [← h.1]
  split
  · rw [h.rd64_eq (by omega), h.rd64_eq (by omega), (h.suffix 16).hash128Seeded_eq]
  · exact h.hash128Seeded_eq K0 K1

theorem hash128Crc_eq : hash128Crc S = hash128Crc T := by
  rw [hash128Crc, hash128Crc, h.1, h.hash128_eq, h.hash256Crc_eq]

theorem hash128CrcSeeded_eq (lo hi : Word64) : hash128CrcSeeded S lo hi = hash128CrcSeeded T lo hi := by
  rw [hash128CrcSeeded, hash128CrcSeeded, h.1, h.hash128Seeded_eq, h.hash256Crc_eq]

end ByteSeq.AgreeInside
end Digests

/-- Settles O37, family by family: each bucket reads inside the lengths that its dispatcher sends to it. -/
theorem digestsReadOnlyInsideInput : Obligations.DigestsReadOnlyInsideInput := by
  unfold Obligations.DigestsReadOnlyInsideInput
  intro S T h
  exact ⟨h.hash32_eq, h.hash64_eq, h.cityMurmur_eq, h.hash128_eq, h.hash128Seeded_eq, h.hash128Crc_eq,
    h.hash128CrcSeeded_eq, h.hash256Crc_eq, h.hash256CrcSeeded_eq⟩

end Sys2Proof.Machine
end

/-! SUPPORT. The fields of a command's word (spec 30_encoding R81, R82), between the encoder and the decoder: the word of
`i` has the fields `i.fields`, a word is determined by its fields, and the decoder answers `i` exactly for these fields. -/
section
namespace Sys2Proof
open Machine

/-- The fields of a command's word: every field outside its format is 0 (spec R82–R84). -/
def Instr.fields (i : Instr) : Fields :=
  match i with
  | .rotr64 r | .rotr32 r => { opc := opcodeOf i, imm := r, s := 0, d := 0, rsv := 0 }
  | .mov dst src => { opc := opcodeOf i, imm := 0, s := sourceCode src, d := destCode dst, rsv := 0 }
  | _ => { opc := opcodeOf i, imm := 0, s := 0, d := 0, rsv := 0 }

/-- The encoder puts every field in its place (spec R81, R90). -/
theorem fieldsOf_encode (i : Instr) : fieldsOf (encode i) = i.fields := by
  cases i with
  | rotr64 r | rotr32 r =>
    revert r
    decide
  | mov dst src => cases dst <;> cases src <;> decide
  | _ => rfl

/-- The five fields cover the 32 bits of a word (spec R81). -/
theorem fieldsOf_injective : Function.Injective fieldsOf := by
  intro cw cw' h
  have hopc := congrArg (·.opc.toNat) h
  have himm := congrArg (·.imm.toNat) h
  have hs := congrArg (·.s.toNat) h
  have hd := congrArg (·.d.toNat) h
  have hrsv := congrArg (·.rsv.toNat) h
  simp only [fieldsOf_opc_toNat, fieldsOf_imm_toNat, fieldsOf_s_toNat, fieldsOf_d_toNat, fieldsOf_rsv_toNat]
    at hopc himm hs hd hrsv
  exact BitVec.eq_of_toNat_eq (by omega)

/-! ### What each part of the decoder accepts -/

/-- Whether an entry of the opcode map stands at the opcode of its commands (spec R86). -/
def Opcode.standsAt (opc : BitVec 8) : Opcode → Bool
  | .plain i => decide ({ opc := opc, imm := 0, s := 0, d := 0, rsv := 0 } = i.fields ∧ i.wellFormed = true)
  | .rotr64 => decide (opc = 0x17)
  | .rotr32 => decide (opc = 0x18)
  | .mov => decide (opc = 0x20)

theorem opcodeMap_standsAt : ∀ opc : BitVec 8, (opcodeMap opc).all (Opcode.standsAt opc) = true := by decide

/-- A destination's D code is the only one that names it (spec R81). -/
theorem destCode_of_destOf : ∀ (d : BitVec 3) (dst : OpReg), destOf d = some dst → d = destCode dst := by
  intro d dst
  cases dst <;> revert d <;> decide

theorem sourceCode_sourceOf : ∀ s : BitVec 2, sourceCode (sourceOf s) = s := by decide

section Formats
variable {f : Fields} {i j : Instr}

theorem decodePlain_ok (h : decodePlain i f = .ok j) : j = i ∧ f.imm = 0 ∧ f.s = 0 ∧ f.d = 0 := by
  unfold decodePlain at h
  split at h
  · cases h; exact ⟨rfl, ‹_›⟩
  · cases h

theorem decodeRotr64_ok (h : decodeRotr64 f = .ok j) : j = .rotr64 f.imm ∧ f.s = 0 ∧ f.d = 0 := by
  unfold decodeRotr64 at h
  split at h
  · cases h; exact ⟨rfl, ‹_›⟩
  · cases h

theorem decodeRotr32_ok (h : decodeRotr32 f = .ok j) :
    j = .rotr32 f.imm ∧ f.imm.toNat < 32 ∧ f.s = 0 ∧ f.d = 0 := by
  unfold decodeRotr32 at h
  split at h
  · split at h
    · cases h; exact ⟨rfl, ‹_›, ‹_›⟩
    · cases h
  · cases h

theorem decodeMov_ok (h : decodeMov f = .ok j) :
    ∃ dst src, j = .mov dst src ∧ f.imm = 0 ∧ f.s = sourceCode src ∧ f.d = destCode dst := by
  unfold decodeMov at h
  split at h
  · split at h
    · cases h; exact ⟨_, _, rfl, ‹_›, (sourceCode_sourceOf _).symm, destCode_of_destOf _ _ ‹_›⟩
    · cases h
  · cases h

end Formats

/-! ### The decoder on fields -/

/-- A word with the fields of a well-formed command decodes to it. -/
theorem decode_of_fieldsOf_eq {cw : Word32} {i : Instr} (h : fieldsOf cw = i.fields) (hi : i.wellFormed = true) :
    decode cw = .ok i := by
  unfold decode
  rw [h]
  cases i with
  | rotr32 r =>
    have hr : r.toNat < 32 := of_decide_eq_true hi
    exact if_pos hr
  | mov dst src => cases dst <;> cases src <;> rfl
  | _ => rfl

/-- A word that decodes has the fields of its command, which is well formed. -/
theorem fieldsOf_eq_of_decode {cw : Word32} {i : Instr} (h : decode cw = .ok i) :
    fieldsOf cw = i.fields ∧ i.wellFormed = true := by
  have hop := opcodeMap_standsAt (fieldsOf cw).opc
  unfold decode at h
  generalize fieldsOf cw = f at h hop ⊢
  obtain ⟨opc, imm, s, d, rsv⟩ := f
  cases ho : opcodeMap opc with
  | none =>
    simp only [ho] at h
    cases h
  | some op =>
    rw [ho] at hop
    by_cases hrsv : rsv = 0
    · simp only [ho, hrsv, if_true] at h
      subst hrsv
      cases op with
      | plain j =>
        obtain ⟨rfl, rfl, rfl, rfl⟩ := decodePlain_ok h
        exact of_decide_eq_true hop
      | rotr64 =>
        obtain ⟨rfl, rfl, rfl⟩ := decodeRotr64_ok h
        obtain rfl := of_decide_eq_true hop
        exact ⟨rfl, rfl⟩
      | rotr32 =>
        obtain ⟨rfl, hlt, rfl, rfl⟩ := decodeRotr32_ok h
        obtain rfl := of_decide_eq_true hop
        exact ⟨rfl, decide_eq_true hlt⟩
      | mov =>
        obtain ⟨dst, src, rfl, rfl, rfl, rfl⟩ := decodeMov_ok h
        obtain rfl := of_decide_eq_true hop
        exact ⟨rfl, rfl⟩
    · simp only [ho, hrsv, if_false] at h
      cases h

/-- Settles O1: the encoder writes the fields of the command, and the decoder answers by the fields. -/
theorem decodeOfEncode : Obligations.DecodeOfEncode := by
  unfold Obligations.DecodeOfEncode
  exact fun i hi => decode_of_fieldsOf_eq (fieldsOf_encode i) hi

/-- Settles O2: the two words have the same fields. -/
theorem encodeOfDecode : Obligations.EncodeOfDecode := by
  unfold Obligations.EncodeOfDecode
  intro cw i h
  obtain ⟨hf, hi⟩ := fieldsOf_eq_of_decode h
  exact ⟨fieldsOf_injective ((fieldsOf_encode i).trans hf.symm), hi⟩

/-- Settles O4: eleven closed facts of the decoder. -/
theorem decodingSampleWords : Obligations.DecodingSampleWords := by
  unfold Obligations.DecodingSampleWords
  decide

/-! ### The illegal words -/

/-- The fields of a well-formed command meet none of the conditions of spec R87. -/
theorem not_illegalWord_of_decode {cw : Word32} {i : Instr} (h : decode cw = .ok i) : ¬ IllegalWord cw := by
  obtain ⟨hf, hi⟩ := fieldsOf_eq_of_decode h
  simp only [IllegalWord, ← fieldsOf_opc_toNat, ← fieldsOf_imm_toNat, ← fieldsOf_s_toNat, ← fieldsOf_d_toNat,
    ← fieldsOf_rsv_toNat, hf]
  cases i with
  | rotr32 r =>
    have hr : r.toNat < 32 := of_decide_eq_true hi
    simpa [Instr.fields, opcodeOf] using hr
  | mov dst src => cases dst <;> simp [Instr.fields, opcodeOf, destCode]
  | _ => simp [Instr.fields, opcodeOf]

/-- The decoder refuses exactly the words of spec R87. -/
theorem decode_error_iff (cw : Word32) : (∃ e, decode cw = .error e) ↔ IllegalWord cw := by
  refine ⟨fun ⟨_, h⟩ => illegalWord_of_decode_error h, fun h => ?_⟩
  cases hd : decode cw with
  | error e => exact ⟨e, rfl⟩
  | ok i => exact absurd h (not_illegalWord_of_decode hd)

/-- A presented word that the decoder refuses is recorded with its own value (spec R291). -/
theorem Machine.State.presentWord_of_decode_error {s : State} {c : Context} {cw : Word32} {e : Illegal} (hr : s.Ready c)
    (h : decode cw = .error e) : s.presentWord cw = .next (s.faultTaken c 1#8 (cw.setWidth 64)) := by
  rw [State.presentWord, h]
  exact State.present_ready hr _

/-- Settles O3: the refused words by `decode_error_iff`, and what one of them does by the frame of a presented word. -/
theorem illegalWordsRaiseIllegalCommand : Obligations.IllegalWordsRaiseIllegalCommand := by
  unfold Obligations.IllegalWordsRaiseIllegalCommand
  refine ⟨decode_error_iff, fun s k c cw rest hl hc hf hcw => ?_⟩
  obtain ⟨e, he⟩ := (decode_error_iff cw).2 hcw
  rw [step_cons hl]
  exact State.presentWord_of_decode_error (s := { s with cur := k, inputs := rest }) ⟨hc, hf⟩ he

end Sys2Proof
end

/-! SUPPORT. A context that has faulted (spec 30_encoding R95, 60_exceptions R296): it reacts to no word, and no line but
the reset changes FAULT and FAULT_INFO. -/
section
namespace Sys2Proof.Machine

section Faulted
variable {c : Context} (h : c.fault ≠ faultNone) (sel : Selector) (cap : BitVec 2)
include h

theorem Context.commandReaction_of_faulted (i : Instr) : c.commandReaction sel cap i = .idle :=
  Context.answer_of_faulted h _

theorem Context.wordReaction_of_faulted (cw : Word32) : c.wordReaction sel cap cw = .idle := by
  unfold Context.wordReaction
  cases decode cw with
  | ok i => exact Context.commandReaction_of_faulted h sel cap i
  | error e => exact Context.answer_of_faulted h _

/-- The actions of the host write registers and IN, never the fault (spec R91). -/
theorem HostLine.ctxAfter_keepsFault {l : HostLine} (hl : l ≠ .reset) :
    (l.ctxAfter sel cap c).fault = c.fault ∧ (l.ctxAfter sel cap c).faultInfo = c.faultInfo := by
  cases l with
  | command k cw => simp [HostLine.ctxAfter, Context.wordReaction_of_faulted h, Context.react]
  | set k r v => simp [HostLine.ctxAfter]
  | loadIn k bs => exact ⟨rfl, rfl⟩
  | read k r => exact ⟨rfl, rfl⟩
  | reset => exact absurd rfl hl

end Faulted

/-- A command of a faulted context does nothing. -/
theorem exec_of_faulted {s : State} {c : Context} (hc : s.ctx? = some c) (hf : c.fault ≠ faultNone) (i : Instr) :
    exec i s = .next s := by
  rw [exec_eq_react hc, Context.commandReaction_of_faulted hf, State.react_idle hc]

/-- A word presented to a faulted context does nothing, legal or not. -/
theorem State.presentWord_of_faulted {s : State} {c : Context} (hc : s.ctx? = some c) (hf : c.fault ≠ faultNone)
    (cw : Word32) : s.presentWord cw = .next s := by
  rw [State.presentWord_eq_react hc, Context.wordReaction_of_faulted hf, State.react_idle hc]

/-- Settles O19: a faulted context is idle, and a line changes no context but its own. -/
theorem faultedContextIsStuck : Obligations.FaultedContextIsStuck := by
  unfold Obligations.FaultedContextIsStuck
  refine ⟨fun i s c hc hf => exec_of_faulted hc hf i, ?_, ?_⟩
  · intro s k c cw rest hl hc hf
    rw [step_cons hl]
    exact State.presentWord_of_faulted (s := { s with cur := k, inputs := rest }) hc hf cw
  · intro s t l rest k c hl hreset hc hf h
    obtain ⟨j, hj⟩ := HostLine.ctx?_of_ne_reset hreset
    obtain ⟨d, hd, -, rfl⟩ := step_next_line hl hj h
    by_cases hkj : k = j
    · subst hkj
      obtain rfl : c = d := Option.some_injective _ (hc.symm.trans hd)
      exact ⟨_, State.afterLine_ctx_same hc l rest, HostLine.ctxAfter_keepsFault hf s.sel s.cap hreset⟩
    · exact ⟨c, (State.afterLine_ctx_ne hkj s l rest d).trans hc, rfl, rfl⟩

end Sys2Proof.Machine
end

/-! SUPPORT. Commands that complete (spec 30_encoding R95, R96): the whole next state of a ready context that has every
read, by the effect of the command and the selector initialisation of spec R260. -/
section
namespace Sys2Proof.Machine

section Completion
variable {s : State} {c : Context} {i : Instr} {d : Digest} (hr : s.Ready c)
  (hd : effectOf s.sel s.cap c i = .digest d)
include hr hd

/-- A command that gives result words writes them, after the selector initialisation that it needs. -/
theorem exec_completes (hs : c.Supplied i) : exec i s = .next ((s.initSelFor i c).done c d) := by
  rw [exec_supplied hr hs, State.afterRule_of_digest hd, State.complete_eq_done]

/-- Without the CRC32C step, SEL stays as it was. -/
theorem exec_completes_of_not_usesCrc (hu : usesCrc i c = false) (hs : c.Supplied i) :
    exec i s = .next (s.done c d) := by
  rw [exec_completes hr hd hs, State.initSelFor, hu]
  rfl

/-- With the CRC32C step, the backend is chosen first. -/
theorem exec_completes_of_usesCrc (hu : usesCrc i c = true) (hs : c.Supplied i) :
    exec i s = .next (s.selChosen.done c d) := by
  rw [exec_completes hr hd hs, State.initSelFor, if_pos hu, State.initSel_eq_selChosen]

/-- The CRC-aware wrappers choose the backend on long inputs only (spec R231, R232). -/
theorem exec_completes_of_usesCrc_long (hu : usesCrc i c = decide (900 < c.len)) (hs : c.Supplied i) :
    exec i s = .next ((if 900 < c.len then s.selChosen else s).done c d) := by
  rw [exec_completes hr hd hs, ← State.initSelLong_eq_initSelFor hu, State.initSelLong, State.initSel_eq_selChosen]

end Completion

/-- A read at ARG0 that lies in IN gives its result (spec R60, R293). -/
theorem Context.readEffect_of_inBounds {c : Context} {width : Nat} (h : c.arg0.value.toNat + width ≤ c.len)
    (rule : Nat → Digest) : c.readEffect width rule = .digest (rule c.arg0.value.toNat) :=
  if_pos (decide_eq_true h)

/-- Settles O21, each by the effect of its rule. -/
theorem primitivesComplete : Obligations.PrimitivesComplete := by
  unfold Obligations.PrimitivesComplete
  intro s c hr
  refine ⟨?_, ?_, ?_, ?_, ?_, fun r => ?_, fun r hs hlt => ?rotr32, ?_, ?_⟩
  case rotr32 => exact exec_completes_of_not_usesCrc hr (if_pos hlt) rfl hs
  all_goals exact exec_completes_of_not_usesCrc hr rfl rfl

/-- Settles O22: in bounds, the effect of the read is its result. -/
theorem boundedReadsComplete : Obligations.BoundedReadsComplete := by
  unfold Obligations.BoundedReadsComplete
  intro s c hr
  refine ⟨fun hs hb => ?_, fun hs hb => ?_, fun hs hb => ?_⟩
  all_goals
    refine exec_completes_of_not_usesCrc hr ?_ rfl hs
    simp only [effectOf, Context.readEffect_of_inBounds hb, Word32.zext64]

/-- Settles O23, each by the effect of its rule; the constant of HASH64_SEED is K0 (log 6). -/
theorem hashCommandsComplete : Obligations.HashCommandsComplete := by
  unfold Obligations.HashCommandsComplete
  intro s c hr
  refine ⟨?_, ?_, ?_, ?_, ?_, ?_, ?_⟩
  all_goals exact exec_completes_of_not_usesCrc hr rfl rfl

/-- Settles O24: three commands always evaluate the CRC32C step, two on long inputs. -/
theorem crcCommandsComplete : Obligations.CrcCommandsComplete := by
  unfold Obligations.CrcCommandsComplete
  intro s c hr
  exact ⟨exec_completes_of_usesCrc hr rfl rfl, exec_completes_of_usesCrc hr rfl rfl,
    exec_completes_of_usesCrc hr rfl rfl, exec_completes_of_usesCrc_long hr rfl rfl,
    exec_completes_of_usesCrc_long hr rfl rfl⟩

/-- Settles O25: the context of `MOV` after it is that of one register write, with the index one further. -/
theorem movCopiesResult : Obligations.MovCopiesResult := by
  unfold Obligations.MovCopiesResult
  intro s c dst src hr hs
  refine ⟨(c.setOpReg dst (c.resReg src).value).advance, exec_supplied hr hs, ?_⟩
  refine ⟨?_, fun r hne => ?_, ?_⟩
  · simp [Reg.ofWord]
  · simp [hne]
  · simp

end Sys2Proof.Machine
end

/-! SUPPORT. The backends (spec R125, R261): SEL and CAP are read by RDSEL and RDCAP alone, so no other command's
reaction depends on them. -/
section
namespace Sys2Proof.Machine

/-- A command that shows neither SEL nor CAP reacts alike under every backend. -/
theorem Context.commandReaction_backend {i : Instr} (hsel : i ≠ .rdsel) (hcap : i ≠ .rdcap) (c : Context)
    (sel sel' : Selector) (cap cap' : BitVec 2) :
    c.commandReaction sel cap i = c.commandReaction sel' cap' i := by
  have hsame : ∀ r ∈ readsOf i, c.SameAt c r := fun r _ => by cases r <;> rfl
  rw [Context.commandReaction, Context.ruleReaction, effectOf_congr hsel hcap hsame sel sel' cap cap']
  rfl

/-- Settles O33: the contexts after a command are those of its reaction, which is the same under every backend. -/
theorem backendNeverChangesResults : Obligations.BackendNeverChangesResults := by
  unfold Obligations.BackendNeverChangesResults
  intro i s t sel' cap' hsel hcap h
  obtain ⟨c, hc, rfl⟩ := exec_next_react h
  refine ⟨_, exec_eq_react (s := { s with sel := sel', cap := cap' }) hc i, ?_⟩
  simp only [State.react, Context.commandReaction_backend hsel hcap c sel' s.sel cap' s.cap]

/-- Settles O26: both commands have no reads, so a ready context supplies them. -/
theorem selectorAndCapabilityReads : Obligations.SelectorAndCapabilityReads := by
  unfold Obligations.SelectorAndCapabilityReads
  intro s c hr
  have hsel : exec .rdsel s = .next (s.done c (.word (s.sel.code.setWidth 64))) :=
    exec_completes_of_not_usesCrc hr rfl rfl nofun
  refine ⟨hsel, exec_completes_of_not_usesCrc hr rfl rfl nofun, fun hu => ?_, by decide, by decide⟩
  rw [hsel, hu]
  rfl

end Sys2Proof.Machine
end

/-! SUPPORT. Rotations, byte swaps and sign extension, bit by bit and byte by byte (spec R112–R116). -/
section
namespace Sys2Proof.Machine

/-! ### Rotations -/

theorem rotr64_eq_rotateRight {r : Nat} (hr : r < 64) (v : Word64) : rotr64 v r = v.rotateRight r := by
  rw [BitVec.rotateRight_def, Nat.mod_eq_of_lt hr, rotr64]
  split
  · next h => simp [h]
  · rfl

theorem rotr32_eq_rotateRight {r : Nat} (hr : r < 32) (v : Word32) : rotr32 v r = v.rotateRight r := by
  rw [BitVec.rotateRight_def, Nat.mod_eq_of_lt hr, rotr32]
  split
  · next h => simp [h]
  · rfl

/-- The library's two ranges of a right rotation as one index around the width. -/
theorem getLsbD_rotateRight_mod {w r i : Nat} (hr : r < w) (hi : i < w) (v : BitVec w) :
    (v.rotateRight r).getLsbD i = v.getLsbD ((i + r) % w) := by
  rw [BitVec.getLsbD_rotateRight_of_lt hr]
  by_cases h : i < w - r
  · rw [Nat.mod_eq_of_lt (by omega), Nat.add_comm i r]
    simp [h]
  · have hmod : (i + r) % w = i - (w - r) := by
      rw [Nat.mod_eq_sub_mod (by omega), Nat.mod_eq_of_lt (by omega)]
      omega
    simp [h, hi, hmod]

/-- Settles O42: both rotations are the library's. -/
theorem rotationsMoveEveryBit : Obligations.RotationsMoveEveryBit := by
  unfold Obligations.RotationsMoveEveryBit
  refine ⟨fun v r i hr hi => ?_, fun v r i hr hi => ?_⟩
  · have hlt : r < 64 := Nat.lt_succ_of_le hr
    rw [rotr64_eq_rotateRight hlt, getLsbD_rotateRight_mod hlt hi]
  · have hlt : r < 32 := Nat.lt_succ_of_le hr
    rw [rotr32_eq_rotateRight hlt, getLsbD_rotateRight_mod hlt hi]

/-! ### Byte swaps -/

/-- Byte `i` of a little-endian value is the `i`-th of its bytes. -/
theorem byteOf64_le64 (b : Nat → Byte) {i : Nat} (hi : i < 8) :
    byteOf64 (le64 (b 0) (b 1) (b 2) (b 3) (b 4) (b 5) (b 6) (b 7)) i = b i := by
  apply BitVec.eq_of_toNat_eq
  rw [byteOf64, BitVec.extractLsb'_toNat, le64_toNat, Nat.shiftRight_eq_div_pow]
  interval_cases i <;> omega

theorem byteOf32_le32 (b : Nat → Byte) {i : Nat} (hi : i < 4) :
    byteOf32 (le32 (b 0) (b 1) (b 2) (b 3)) i = b i := by
  apply BitVec.eq_of_toNat_eq
  rw [byteOf32, BitVec.extractLsb'_toNat, le32_toNat, Nat.shiftRight_eq_div_pow]
  interval_cases i <;> omega

/-- Settles O43: a byte swap is the little-endian value of the bytes in the other order. -/
theorem byteSwapsReverseBytes : Obligations.ByteSwapsReverseBytes := by
  unfold Obligations.ByteSwapsReverseBytes
  exact ⟨fun v _ hi => byteOf64_le64 (fun k => byteOf64 v (7 - k)) hi,
    fun v _ hi => byteOf32_le32 (fun k => byteOf32 v (3 - k)) hi, by decide, by decide⟩

/-! ### Signed bytes -/

/-- Settles O45: the sign bit is set from 0x80 on, and then sign extension adds 2^32 - 2^8. -/
theorem signedBytes : Obligations.SignedBytes := by
  unfold Obligations.SignedBytes
  intro S i
  have hmsb : (S.byte i).msb = decide (0x80 ≤ (S.byte i).toNat) := BitVec.msb_eq_decide _
  apply BitVec.eq_of_toNat_eq
  rw [ByteSeq.sbyte, BitVec.toNat_signExtend, hmsb]
  by_cases h : (S.byte i).toNat < 0x80
  · simp [h]
  · have hadd : ((S.byte i).setWidth 32 + 0xFFFFFF00#32).toNat = (S.byte i).toNat + 0xFFFFFF00 := by
      have hlt : (S.byte i).toNat + 0xFFFFFF00 < 2 ^ 32 := by omega
      rw [BitVec.toNat_add, BitVec.toNat_setWidth_of_le (by decide)]
      exact Nat.mod_eq_of_lt hlt
    rw [if_neg h, hadd, BitVec.toNat_setWidth_of_le (by decide), if_pos (by simpa using h)]

end Sys2Proof.Machine
end

/-! SUPPORT. The mixers and the CRC32C step as the rules write them (spec R117, R118, R121, R124). -/
section
namespace Sys2Proof.Machine

/-! ### The mixers -/

/-- The shifted word reaches the bits below 17 only. -/
theorem getLsbD_shiftMix_of_ge {i : Nat} (hi : 17 ≤ i) (x : Word64) : (shiftMix x).getLsbD i = x.getLsbD i := by
  rw [shiftMix, BitVec.getLsbD_xor, BitVec.getLsbD_ushiftRight, BitVec.getLsbD_of_ge x (47 + i) (by omega),
    Bool.xor_false]

/-- Settles O46: bits 63..47 are among those that the shifted word does not reach. -/
theorem shiftMixCorners : Obligations.ShiftMixCorners := by
  unfold Obligations.ShiftMixCorners
  exact ⟨fun _ => rfl, by decide, fun x _ hlo _ => getLsbD_shiftMix_of_ge (by omega) x, by decide, by decide⟩

theorem hashLen16Mul_mul_zero (u v : Word64) : hashLen16Mul u v 0 = 0 := BitVec.mul_zero

theorem hashLen16Mul_zero_zero (mul : Word64) : hashLen16Mul 0 0 mul = 0 := by
  simp [hashLen16Mul]

/-- Settles O47; 1 and 2 with the multiplier 1 show that the order of u and v matters. -/
theorem hashLen16Fold : Obligations.HashLen16Fold := by
  unfold Obligations.HashLen16Fold
  exact ⟨fun _ _ _ => rfl, hashLen16Mul_mul_zero, hashLen16Mul_zero_zero, ⟨1, 2, 1, by decide⟩, by decide⟩

/-- Settles O53: the body and the buffer form are what the definitions unfold to. -/
theorem weakHashBody : Obligations.WeakHashBody := by
  unfold Obligations.WeakHashBody
  exact ⟨fun _ _ _ _ _ _ => rfl, fun _ _ _ _ => rfl, by decide, by decide⟩

/-! ### The CRC32C step -/

/-- One byte is eight bit steps. -/
theorem crcByte_eq_iterate (c : Word32) (b : Byte) : crcByte c b = crcBit^[8] (c ^^^ b.setWidth 32) := rfl

/-- The step is a fold over the eight bytes, from the low half of `crc`. -/
theorem crc32cU64_eq_foldl (crc data : Word64) :
    crc32cU64 crc data =
      ((List.range 8).foldl (fun c i => crcBit^[8] (c ^^^ (byteOf64 data i).setWidth 32)) crc.low32).zext64 := by
  simp only [← crcByte_eq_iterate]
  rfl

/-- Settles O48: the rule's fold starts from crc[31:0] and ends in a u32. -/
theorem crc32cStep : Obligations.Crc32cStep := by
  unfold Obligations.Crc32cStep
  refine ⟨crc32cU64_eq_foldl, fun crc crc' data h => ?_, fun crc data => ?_, by decide +kernel⟩
  · have hlow : crc.low32 = crc'.low32 := h
    rw [crc32cU64_eq_foldl, crc32cU64_eq_foldl, hlow]
  · rw [crc32cU64_eq_foldl, Word32.zext64, BitVec.toNat_setWidth_of_le (by decide)]
    exact BitVec.isLt _

end Sys2Proof.Machine
end

/-! SUPPORT. The 32-bit family's dispatcher, and the byte fold of its shortest inputs (spec R150, R151). -/
section
namespace Sys2Proof.Machine

section Buckets
variable {S : ByteSeq}

theorem hash32_of_len_le_4 (hhi : S.len ≤ 4) : hash32 S = h32_0to4 S := if_pos hhi

theorem hash32_of_len_5to12 (hlo : 4 < S.len) (hhi : S.len ≤ 12) : hash32 S = h32_5to12 S := by
  rw [hash32, if_neg hlo.not_ge, if_pos hhi]

theorem hash32_of_len_13to24 (hlo : 12 < S.len) (hhi : S.len ≤ 24) : hash32 S = h32_13to24 S := by
  have h4 : ¬ S.len ≤ 4 := by omega
  rw [hash32, if_neg h4, if_neg hlo.not_ge, if_pos hhi]

theorem hash32_of_24_lt_len (hlo : 24 < S.len) : hash32 S = h32_long S := by
  have h4 : ¬ S.len ≤ 4 := by omega
  have h12 : ¬ S.len ≤ 12 := by omega
  rw [hash32, if_neg h4, if_neg h12, if_neg hlo.not_ge]

end Buckets

/-- Settles O49: one equation of the dispatcher per bucket. -/
theorem hash32Buckets : Obligations.Hash32Buckets := by
  unfold Obligations.Hash32Buckets
  exact fun _ => ⟨hash32_of_len_le_4, hash32_of_len_5to12, hash32_of_len_13to24, hash32_of_24_lt_len⟩

/-- A counted loop is a fold over the offsets where its windows start. -/
theorem chunkLoop_eq_foldl {σ : Type} (width : Nat) (step : Nat → σ → σ) (k p : Nat) (st : σ) :
    chunkLoop width step k p st = (List.range' p k width).foldl (fun st q => step q st) st := by
  induction k generalizing p st with
  | zero => rfl
  | succ k ih => rw [chunkLoop, ih, List.range'_succ, List.foldl_cons]

/-- The byte fold of `n` bytes from the first one on. -/
theorem foldBytes32_eq_foldl (S : ByteSeq) (n : Nat) (bc : Word32 × Word32) :
    foldBytes32 S n 0 bc = (List.range n).foldl (fun bc i => foldByte32 S i bc) bc := by
  rw [foldBytes32_eq_chunkLoop, chunkLoop_eq_foldl, List.range_eq_range']

/-- Settles O50: the bucket of at most four bytes finishes its byte fold from (0, 9). -/
theorem hash32ShortInputs : Obligations.Hash32ShortInputs := by
  unfold Obligations.Hash32ShortInputs
  refine ⟨fun S hlen => ?_, by decide +kernel⟩
  rw [hash32_of_len_le_4 hlen, h32_0to4, foldBytes32_eq_foldl]
  rfl

end Sys2Proof.Machine
end

/-! SUPPORT. The 64-bit family's dispatcher and the sub-cases of its shortest inputs (spec R170, R171). -/
section
namespace Sys2Proof.Machine

section Buckets
variable {S : ByteSeq}

theorem hash64_of_len_le_16 (hhi : S.len ≤ 16) : hash64 S = h64_0to16 S := if_pos hhi

theorem hash64_of_len_17to32 (hlo : 16 < S.len) (hhi : S.len ≤ 32) : hash64 S = h64_17to32 S := by
  rw [hash64, if_neg hlo.not_ge, if_pos hhi]

theorem hash64_of_len_33to64 (hlo : 32 < S.len) (hhi : S.len ≤ 64) : hash64 S = h64_33to64 S := by
  have h16 : ¬ S.len ≤ 16 := by omega
  rw [hash64, if_neg h16, if_neg hlo.not_ge, if_pos hhi]

theorem hash64_of_64_lt_len (hlo : 64 < S.len) : hash64 S = h64_long S := by
  have h16 : ¬ S.len ≤ 16 := by omega
  have h32 : ¬ S.len ≤ 32 := by omega
  rw [hash64, if_neg h16, if_neg h32, if_neg hlo.not_ge]

theorem hash64_of_len_8to16 (hlo : 8 ≤ S.len) (hhi : S.len ≤ 16) : hash64 S = h64_8to16 S := by
  rw [hash64_of_len_le_16 hhi, h64_0to16, if_pos hlo]

theorem hash64_of_len_4to7 (hlo : 4 ≤ S.len) (hhi : S.len < 8) : hash64 S = h64_4to7 S := by
  rw [hash64_of_len_le_16 (by omega), h64_0to16, if_neg hhi.not_ge, if_pos hlo]

theorem hash64_of_len_1to3 (hlo : 0 < S.len) (hhi : S.len < 4) : hash64 S = h64_1to3 S := by
  have h8 : ¬ 8 ≤ S.len := by omega
  rw [hash64_of_len_le_16 (by omega), h64_0to16, if_neg h8, if_neg hhi.not_ge, if_pos hlo]

theorem hash64_of_len_eq_zero (h0 : S.len = 0) : hash64 S = K2 := by
  simp [hash64, h64_0to16, h0]

end Buckets

/-- Settles O51: one equation of the dispatcher per bucket. -/
theorem hash64Buckets : Obligations.Hash64Buckets := by
  unfold Obligations.Hash64Buckets
  exact fun _ => ⟨hash64_of_len_le_16, hash64_of_len_17to32, hash64_of_len_33to64, hash64_of_64_lt_len⟩

/-- Settles O52: m is `lenMul S`, and each sub-case's definition unfolds to its formula (`n >>> 1` to `n / 2`). -/
theorem hash64ShortInputs : Obligations.Hash64ShortInputs := by
  unfold Obligations.Hash64ShortInputs
  refine ⟨?_, by decide +kernel⟩
  rintro S m rfl
  exact ⟨hash64_of_len_8to16, hash64_of_len_4to7, hash64_of_len_1to3, hash64_of_len_eq_zero⟩

end Sys2Proof.Machine
end

/-! SUPPORT. The literal vectors of the source as digests (spec 95_test_vectors section 1.1), and the commands that read IN
alone. -/
section
namespace Sys2Proof.Machine

/-- A command that reads IN alone is supplied once a buffer is loaded (spec R97). -/
theorem Context.supplied_of_inBuf_written {c : Context} {i : Instr} (hi : readsOf i = [.input])
    (hw : c.inBuf.written = true) : c.Supplied i := by
  intro r hr
  rw [hi, List.mem_singleton] at hr
  rw [hr]
  exact hw

theorem Context.input_of_cells {c : Context} {m : Memory} (h : c.inBuf.cells = m) : c.input = Memory.seq m :=
  congrArg Memory.seq h

/-! ### The digests -/

/-- V1: the empty input gives K2. -/
theorem hash64_empty : hash64 (Memory.seq (Memory.ofBytes [])) = 11160318154034397263#64 := hash64_of_len_eq_zero rfl

/-- V2. -/
theorem hash64_fox :
    hash64 (Memory.seq (Memory.ofBytes
      [0x54, 0x68, 0x65, 0x20, 0x71, 0x75, 0x69, 0x63, 0x6B, 0x20, 0x62, 0x72, 0x6F, 0x77, 0x6E, 0x20, 0x66, 0x6F, 0x78,
       0x20, 0x6A, 0x75, 0x6D, 0x70, 0x73, 0x20, 0x6F, 0x76, 0x65, 0x72, 0x20, 0x74, 0x68, 0x65, 0x20, 0x6C, 0x61, 0x7A,
       0x79, 0x20, 0x64, 0x6F, 0x67])) = 14008572299481893501#64 := by
  decide +kernel

/-- V3. -/
theorem cityMurmur_empty :
    cityMurmur (Memory.seq (Memory.ofBytes [])) 0 0 = (0xfcf7cc0ecf416467#64, 0xb2369acfccf83dbf#64) := by
  decide +kernel

/-- V4. -/
theorem cityMurmur_123 :
    cityMurmur (Memory.seq (Memory.ofBytes [0x31, 0x32, 0x33])) 0 0 =
      (0x9e775dcae13b1141#64, 0x6efabd18231d8f3d#64) := by
  decide +kernel

/-- V5 and V6. -/
theorem hash256Crc_hello :
    hash256Crc (Memory.seq (Memory.ofBytes [0x48, 0x65, 0x6C, 0x6C, 0x6F, 0x20, 0x43, 0x52, 0x43])) =
      { r0 := 0x988ece8e25ce0472#64, r1 := 0x7e18a4b6d72c9bce#64, r2 := 0x481922464e817f5a#64,
        r3 := 0xbc870341b4254799#64 } := by
  decide +kernel

/-- Settles O60: the commands complete with the digest of IN, which is the vector's. -/
theorem sourceVectors : Obligations.SourceVectors := by
  unfold Obligations.SourceVectors
  intro s c hr hw
  obtain ⟨-, hHash64, -, hMurmur, -⟩ := hashCommandsComplete s c hr
  obtain ⟨-, hCrc, -⟩ := crcCommandsComplete s c hr
  replace hHash64 := hHash64 (Context.supplied_of_inBuf_written rfl hw)
  replace hMurmur := hMurmur (Context.supplied_of_inBuf_written rfl hw)
  replace hCrc := hCrc (Context.supplied_of_inBuf_written rfl hw)
  refine ⟨fun h => ⟨?_, ?_⟩, fun h => ?_, fun h => ?_, fun h => ?_⟩
  · rw [hHash64, Context.input_of_cells h, hash64_empty]
  · rw [hMurmur, Context.input_of_cells h, cityMurmur_empty]
  · rw [hHash64, Context.input_of_cells h, hash64_fox]
  · rw [hMurmur, Context.input_of_cells h, cityMurmur_123]
  · rw [hCrc, Context.input_of_cells h, hash256Crc_hello]

end Sys2Proof.Machine
end

/-! SUPPORT. Where the 128-bit digests are one another (spec 43_murmur128 R200–R205, 44_hash128 R220, R227, R228,
45_crc256 R258), and commands that are equal because they miss the same read or have the same rule. -/
section
namespace Sys2Proof.Machine

section Digests
variable {S : ByteSeq}

theorem cityMurmur_of_len_le_16 (hhi : S.len ≤ 16) (lo hi : Word64) :
    cityMurmur S lo hi = murFinal (murShort S lo hi) := if_pos hhi

theorem hash128Seeded_of_len_lt_128 (hhi : S.len < 128) (lo hi : Word64) :
    hash128Seeded S lo hi = cityMurmur S lo hi := if_pos hhi

theorem hash128Crc_of_len_le_900 (hhi : S.len ≤ 900) : hash128Crc S = hash128 S := if_pos hhi

theorem hash128Crc_of_900_lt_len (hlo : 900 < S.len) : hash128Crc S = ((hash256Crc S).r2, (hash256Crc S).r3) :=
  if_neg hlo.not_ge

theorem hash128CrcSeeded_of_len_le_900 (hhi : S.len ≤ 900) (lo hi : Word64) :
    hash128CrcSeeded S lo hi = hash128Seeded S lo hi := if_pos hhi

end Digests

/-- Settles O54: on at most 16 bytes `hash64` is `h64_0to16`, and the branch of R201 with the combine of R204 unfolds to
the statement's lines. -/
theorem murmurShortInputs : Obligations.MurmurShortInputs := by
  unfold Obligations.MurmurShortInputs
  rintro S lo hi a b c d hlen rfl rfl rfl rfl
  rw [cityMurmur_of_len_le_16 hlen, hash64_of_len_le_16 hlen]
  rfl

/-- A written register is passed over in the search for a missing read. -/
theorem Context.firstUnwritten_cons_of_written {c : Context} {r : Source} (h : c.isWritten r = true)
    (reads : List Source) : c.firstUnwritten (r :: reads) = c.firstUnwritten reads := by
  simp [Context.firstUnwritten, h]

/-- Two legal commands that miss the same read, have the same effect and both choose the backend or both do not are
equal. -/
theorem exec_eq_of_same_rule {s : State} {c : Context} {i j : Instr} (hr : s.Ready c) (hi : i.wellFormed = true)
    (hj : j.wellFormed = true)
    (hreads : c.firstUnwritten (readsOf i) = c.firstUnwritten (readsOf j)) (hcrc : usesCrc i c = usesCrc j c)
    (heff : effectOf s.sel s.cap c i = effectOf s.sel s.cap c j) : exec i s = exec j s := by
  rw [exec_eq_react hr.1, exec_eq_react hr.1, Context.commandReaction, Context.commandReaction, if_pos hi, if_pos hj,
    Context.ruleReaction, Context.ruleReaction, hreads, hcrc, heff]

/-- Settles O29: each pair has the same rule by the equation of its digests. The seeds that only one command of a pair
reads are written, and up to 900 bytes no wrapper chooses the backend. -/
theorem equalCommands : Obligations.EqualCommands := by
  unfold Obligations.EqualCommands
  intro s c hr
  refine ⟨fun hlen => ?upTo900, fun hlen => ?below128, fun h0 h1 => ?seedZero, fun hw h0 => ?crcSeedZero,
    fun hlen hw => ?above900⟩
  case upTo900 =>
    have hcrc : decide (900 < c.len) = false := decide_eq_false hlen.not_gt
    refine ⟨exec_eq_of_same_rule hr rfl rfl rfl hcrc ?_, exec_eq_of_same_rule hr rfl rfl rfl hcrc ?_⟩
    · rw [effectOf, effectOf, hash128Crc_of_len_le_900 hlen]
    · rw [effectOf, effectOf, hash128CrcSeeded_of_len_le_900 hlen]
  case below128 =>
    refine exec_eq_of_same_rule hr rfl rfl rfl rfl ?_
    rw [effectOf, effectOf, hash128Seeded_of_len_lt_128 hlen]
  case seedZero =>
    have hw0 : c.isWritten (.op .seed0) = true := congrArg Reg.written h0
    have hw1 : c.isWritten (.op .seed1) = true := congrArg Reg.written h1
    refine exec_eq_of_same_rule hr rfl rfl ?_ rfl ?_
    · exact (Context.firstUnwritten_cons_of_written hw0 _).trans (Context.firstUnwritten_cons_of_written hw1 _)
    · rw [effectOf, effectOf, h0, h1]
  case crcSeedZero =>
    have hw0 : c.isWritten (.op .seed0) = true := hw
    refine exec_eq_of_same_rule hr rfl rfl (Context.firstUnwritten_cons_of_written hw0 _) rfl ?_
    exact congrArg (fun seed => Effect.digest (hash256CrcSeeded c.input seed)) h0
  case above900 =>
    have hcrc : usesCrc .hash128Crc c = true := decide_eq_true hlen
    rw [exec_completes_of_usesCrc hr rfl hcrc (Context.supplied_of_inBuf_written rfl hw), hash128Crc_of_900_lt_len hlen]
    rfl

end Sys2Proof.Machine
end

/-! SUPPORT. The loops of spec R222, R224 and R255 as they are written run the counts of R327: `k` repetitions, with fuel
for at least `k`, are the counted loop of `k` steps. -/
section
namespace Sys2Proof.Machine

/-- The repeat loop of spec R222 over any step: `p <- p + width`, `rem <- rem − width`, until `rem < width`. Over an
open step its equations cost the kernel nothing, where those of `repeat222` make it evaluate two chunks. -/
def repeatLoop {σ : Type} (width : Nat) (step : Nat → σ → σ) : Nat → Nat → Nat → σ → σ × Nat × Nat
  | 0, rem, p, st => (st, p, rem)
  | fuel + 1, rem, p, st =>
    let st := step p st
    if rem - width < width then (st, p + width, rem - width)
    else repeatLoop width step fuel (rem - width) (p + width) st

/-- A repeat loop runs once at least, and once for every whole `width` bytes. -/
theorem repeatLoop_eq_chunkLoop {σ : Type} {width : Nat} {step : Nat → σ → σ} {k r rem fuel : Nat}
    (hrem : rem = width * (k + 1) + r) (hr : r < width) (hfuel : k < fuel) (p : Nat) (st : σ) :
    repeatLoop width step fuel rem p st = (chunkLoop width step (k + 1) p st, p + width * (k + 1), r) := by
  induction k generalizing rem fuel p st with
  | zero =>
    obtain ⟨fuel, rfl⟩ := Nat.exists_eq_add_one.mpr hfuel
    have hleft : rem - width = r := by omega
    rw [repeatLoop, hleft, if_pos hr, Nat.mul_one]
    rfl
  | succ k ih =>
    obtain ⟨fuel, rfl⟩ := Nat.exists_eq_add_one.mpr (Nat.zero_lt_of_lt hfuel)
    have hleft : rem - width = width * (k + 1) + r := by rw [hrem, Nat.mul_succ width (k + 1)]; omega
    have hmore : ¬ rem - width < width := by rw [hleft, Nat.mul_succ]; omega
    have hend : p + width + width * (k + 1) = p + width * (k + 1 + 1) := by rw [Nat.mul_succ width (k + 1)]; omega
    rw [repeatLoop, if_neg hmore, ih hleft (by omega), hend]
    rfl

section Loops
variable {S : ByteSeq}

theorem repeat222_eq_repeatLoop :
    repeat222 S = repeatLoop 128 fun p st => chunk64 S (p + 64) (chunk64 S p st) := by delta repeat222 repeatLoop; rfl

/-- The loop of R222 runs once at least, and once for every whole 128 bytes. -/
theorem repeat222_eq_h128Loop {k r rem fuel : Nat} (hrem : rem = 128 * (k + 1) + r) (hr : r < 128) (hfuel : k < fuel)
    (p : Nat) (st : H64) : repeat222 S fuel rem p st = (h128Loop S (k + 1) p st, p + 128 * (k + 1), r) := by
  rw [repeat222_eq_repeatLoop, h128Loop_eq_chunkLoop]
  exact repeatLoop_eq_chunkLoop hrem hr hfuel p st

/-- The loop of R224 ends with the first `t` that is not below `rem`. -/
theorem while224_eq_h128Tail {p rem k t fuel : Nat} (hlen : p + rem = S.len) (hlo : t + 32 * k < rem + 32)
    (hhi : rem ≤ t + 32 * k) (hfuel : k ≤ fuel) (st : H64) : while224 S p rem fuel t st = h128Tail S k t st := by
  rw [h128Tail_eq_chunkLoop]
  induction fuel generalizing k t st with
  | zero =>
    obtain rfl : k = 0 := by omega
    rfl
  | succ fuel ih =>
    rw [while224]
    split_ifs with ht
    · obtain ⟨k, rfl⟩ := Nat.exists_eq_add_one.mpr (show 0 < k by omega)
      rw [ih (k := k) (by omega) (by omega) (by omega), chunkLoop, hlen]
    · obtain rfl : k = 0 := by omega
      rfl

/-- The loop of R255 runs once for every whole 40 bytes. -/
theorem while255_eq_crcRemLoop {k r rem fuel : Nat} (hrem : rem = 40 * k + r) (hr : r < 40) (hfuel : k ≤ fuel) (p : Nat)
    (st : Crc) : while255 S fuel rem p st = (crcRemLoop S k p st, r) := by
  rw [crcRemLoop_eq_chunkLoop]
  induction fuel generalizing k rem p st with
  | zero =>
    obtain ⟨rfl, rfl⟩ : k = 0 ∧ rem = r := by omega
    rfl
  | succ fuel ih =>
    rw [while255]
    split_ifs with h
    · obtain ⟨k, rfl⟩ := Nat.exists_eq_add_one.mpr (show 0 < k by omega)
      rw [ih (k := k) (by omega) (by omega), chunkLoop]
    · obtain ⟨rfl, rfl⟩ : k = 0 ∧ rem = r := by omega
      rfl

theorem h128_long_eq_asWritten (hlen : 128 ≤ S.len) (lo hi : Word64) :
    h128_long S lo hi = h128LongAsWritten S lo hi := by
  obtain ⟨k, hk⟩ := Nat.exists_eq_add_one.mpr (Nat.div_pos hlen (by decide))
  rw [h128_long, h128LongAsWritten, hk,
    repeat222_eq_h128Loop (k := k) (r := S.len % 128) (by omega) (by omega) (by omega)]
  dsimp only
  rw [while224_eq_h128Tail (k := (S.len % 128 + 31) / 32) (by omega) (by omega) (by omega) (by omega)]

theorem crc256Long_eq_asWritten (S : ByteSeq) (seed : Word32) : crc256Long S seed = crc256LongAsWritten S seed := by
  unfold crc256Long crc256LongAsWritten
  dsimp only
  rw [while255_eq_crcRemLoop (Nat.div_add_mod _ 40).symm (Nat.mod_lt _ (by decide)) (by omega)]

end Loops

/-- Settles O59: every loop as it is written runs the count that its counted form is given. -/
theorem countedLoopsFollowTheRules : Obligations.CountedLoopsFollowTheRules := by
  unfold Obligations.CountedLoopsFollowTheRules
  exact ⟨fun _ lo hi hlen => h128_long_eq_asWritten hlen lo hi, fun S seed _ => crc256Long_eq_asWritten S seed⟩

end Sys2Proof.Machine
end

/-! SUPPORT. The dispatchers of the 128-bit entries and of the seeded CRC-aware wrapper (spec R220, R226, R228). -/
section
namespace Sys2Proof.Machine

section Digests
variable {S : ByteSeq}

theorem ByteSeq.len_suffix (S : ByteSeq) (p : Nat) : (S.suffix p).len = S.len - p := rfl

theorem hash128Seeded_of_128_le_len (hlo : 128 ≤ S.len) (lo hi : Word64) :
    hash128Seeded S lo hi = h128_long S lo hi := if_neg hlo.not_gt

theorem hash128_of_len_lt_16 (hhi : S.len < 16) : hash128 S = hash128Seeded S K0 K1 := if_neg hhi.not_ge

theorem hash128_of_16_le_len (hlo : 16 ≤ S.len) :
    hash128 S = hash128Seeded (S.suffix 16) (S.rd64 0) (S.rd64 8 + K0) := if_pos hlo

theorem hash128CrcSeeded_of_900_lt_len (hlo : 900 < S.len) (lo hi : Word64) :
    hash128CrcSeeded S lo hi =
      (hashLen16 (hi + (hash256Crc S).r0) (lo + (hash256Crc S).r1 + (hash256Crc S).r2),
        hashLen16 (rotr64 (lo + (hash256Crc S).r1) 32) ((hi + (hash256Crc S).r0) * K0 + (hash256Crc S).r3)) :=
  if_neg hlo.not_ge

end Digests

/-- Settles O58: the unseeded entry is the seeded one, below 16 bytes on the whole input and else without its first 16
bytes, where 128 bytes left are 144 in all. -/
theorem hash128Boundaries : Obligations.Hash128Boundaries := by
  unfold Obligations.Hash128Boundaries
  intro S
  refine ⟨fun lo hi hlen => hash128Seeded_of_len_lt_128 hlen lo hi,
    fun lo hi hlen => hash128Seeded_of_128_le_len hlen lo hi, fun hlen => ?short, fun hlo hhi => ?murmur,
    fun hlen => ?long, by decide +kernel, by decide +kernel⟩
  case short => exact (hash128_of_len_lt_16 hlen).trans (hash128Seeded_of_len_lt_128 (by omega) K0 K1)
  case murmur =>
    rw [hash128_of_16_le_len hlo, hash128Seeded_of_len_lt_128 (by rw [ByteSeq.len_suffix]; omega)]
    rfl
  case long =>
    rw [hash128_of_16_le_len (by omega), hash128Seeded_of_128_le_len (by rw [ByteSeq.len_suffix]; omega)]
    rfl

/-- Settles O55: the wrapper's branches are the rule's with `u` and `v` put in. -/
theorem crcSeededRecombination : Obligations.CrcSeededRecombination := by
  unfold Obligations.CrcSeededRecombination
  refine ⟨fun S lo hi => ⟨fun hlen => hash128CrcSeeded_of_len_le_900 hlen lo hi, ?_⟩, by decide +kernel⟩
  rintro hlen u v rfl rfl
  exact hash128CrcSeeded_of_900_lt_len hlen lo hi

end Sys2Proof.Machine
end

/-! SUPPORT. Two commands of different contexts (spec R260, R303, R326): each reacts to its own context and to CAP, and
the two selector initialisations commute. -/
section
namespace Sys2Proof.Machine

/-- A command that does not show SEL reacts alike whatever SEL is. -/
theorem Context.commandReaction_sel {i : Instr} (hi : i ≠ .rdsel) (c : Context) (sel sel' : Selector) (cap : BitVec 2) :
    c.commandReaction sel cap i = c.commandReaction sel' cap i := by
  by_cases hcap : i = .rdcap
  · subst hcap
    rfl
  · exact Context.commandReaction_backend hi hcap c sel sel' cap cap

/-- The selector race: SEL after two reactions does not depend on their order (spec R326). -/
theorem Reaction.selAfter_comm (p q : Reaction) (sel : Selector) (cap : BitVec 2) :
    q.selAfter (p.selAfter sel cap) cap = p.selAfter (q.selAfter sel cap) cap := by
  cases p with
  | idle => rfl
  | act e crc =>
    cases q with
    | idle => rfl
    | act e' crc' => cases crc <;> cases crc' <;> rfl

/-- The state after a command of context `k`, which is `c`. -/
def State.reactAs (s : State) (k : Nat) (c : Context) (i : Instr) : State :=
  State.react { s with cur := k } c (c.commandReaction s.sel s.cap i)

theorem State.runAs_eq_reactAs {s : State} {k : Nat} {c : Context} (h : s.ctxs[k]? = some c) (i : Instr) :
    s.runAs k i = .next (s.reactAs k c i) :=
  exec_eq_react (s := { s with cur := k }) h i

theorem State.runAs_next {s t : State} {k : Nat} {i : Instr} (h : s.runAs k i = .next t) :
    ∃ c, s.ctxs[k]? = some c ∧ t = s.reactAs k c i :=
  exec_next_react h

/-- A command of context `k` leaves every other context. -/
theorem State.reactAs_ctx_ne {j k : Nat} (h : j ≠ k) (s : State) (c : Context) (i : Instr) :
    (s.reactAs k c i).ctxs[j]? = s.ctxs[j]? := List.getElem?_set_ne h.symm

/-- Settles O34: neither command writes the other's context, neither reaction depends on SEL, and the choices of SEL
commute. -/
theorem contextsCommute : Obligations.ContextsCommute := by
  unfold Obligations.ContextsCommute
  intro s t1 t12 a b i j hab hi hj h1 h2
  obtain ⟨c, hc, rfl⟩ := State.runAs_next h1
  obtain ⟨d, hd, rfl⟩ := State.runAs_next h2
  rw [State.reactAs_ctx_ne hab.symm] at hd
  have hc' : (s.reactAs b d j).ctxs[a]? = some c := (State.reactAs_ctx_ne hab s d j).trans hc
  have hi' : c.commandReaction (s.reactAs b d j).sel s.cap i = c.commandReaction s.sel s.cap i :=
    Context.commandReaction_sel hi ..
  have hj' : d.commandReaction (s.reactAs a c i).sel s.cap j = d.commandReaction s.sel s.cap j :=
    Context.commandReaction_sel hj ..
  refine ⟨_, _, State.runAs_eq_reactAs hd j, State.runAs_eq_reactAs hc' i, ?_, ?_, rfl⟩
  · calc ((s.reactAs b d j).reactAs a c i).ctxs
      _ = (s.ctxs.set b (d.react (d.commandReaction s.sel s.cap j))).set a
            (c.react (c.commandReaction s.sel s.cap i)) := congrArg (fun q => List.set _ a (c.react q)) hi'
      _ = (s.ctxs.set a (c.react (c.commandReaction s.sel s.cap i))).set b
            (d.react (d.commandReaction s.sel s.cap j)) := List.set_comm _ _ hab.symm
      _ = ((s.reactAs a c i).reactAs b d j).ctxs := congrArg (fun q => List.set _ b (d.react q)) hj'.symm
  · calc ((s.reactAs b d j).reactAs a c i).sel
      _ = (c.commandReaction s.sel s.cap i).selAfter ((d.commandReaction s.sel s.cap j).selAfter s.sel s.cap) s.cap :=
            congrArg (Reaction.selAfter _ s.cap) hi'
      _ = (d.commandReaction s.sel s.cap j).selAfter ((c.commandReaction s.sel s.cap i).selAfter s.sel s.cap) s.cap :=
            Reaction.selAfter_comm ..
      _ = ((s.reactAs a c i).reactAs b d j).sel := congrArg (Reaction.selAfter _ s.cap) hj'.symm

end Sys2Proof.Machine
end

/-! SUPPORT. When a command chooses the backend (spec R259, R260, R294): exactly on completing, if it evaluates the CRC32C
step. -/
section
namespace Sys2Proof.Machine

/-- No command that evaluates the CRC32C step reads at an offset, so its rule has no fault to record. -/
theorem effectOf_ne_fault_of_usesCrc {i : Instr} {c : Context} (hu : usesCrc i c = true) (sel : Selector)
    (cap : BitVec 2) (code : FaultCode) (info : Word64) : effectOf sel cap c i ≠ .fault code info := by
  cases i with
  | hash256Crc | hash256CrcSeed | crc32c | hash128Crc | hash128CrcSeed => exact nofun
  | _ => cases hu

/-- The command of a context without a fault records a fault and leaves SEL, or completes and initialises SEL as the
table of R260 says. -/
theorem Context.commandReaction_of_ready {c : Context} (hf : c.fault = faultNone) (sel : Selector) (cap : BitVec 2)
    (i : Instr) :
    (∃ code info, c.commandReaction sel cap i = .act (.fault code info) false) ∨
    (∃ e, (∀ code info, e ≠ .fault code info) ∧ c.commandReaction sel cap i = .act e (usesCrc i c)) := by
  rw [Context.commandReaction, Context.answer_of_ready hf]
  split
  · rw [Context.ruleReaction]
    cases c.firstUnwritten (readsOf i) with
    | some r => exact .inl ⟨_, _, rfl⟩
    | none =>
      cases hu : usesCrc i c with
      | true => exact .inr ⟨_, effectOf_ne_fault_of_usesCrc hu sel cap, rfl⟩
      | false =>
        cases he : effectOf sel cap c i with
        | fault code info => exact .inl ⟨code, info, rfl⟩
        | digest | move =>
          refine .inr ⟨_, ?_, rfl⟩
          exact nofun
  · exact .inl ⟨_, _, rfl⟩

/-- SEL after an effect, as one condition (spec R260). -/
theorem Reaction.selAfter_act (e : Effect) (crc : Bool) (sel : Selector) (cap : BitVec 2) :
    (Reaction.act e crc).selAfter sel cap = if crc = true ∧ sel = .uninit then probe cap else sel := by
  cases crc <;> simp [Reaction.selAfter]

/-- The executing context after its reaction. -/
theorem State.ctx?_react {s : State} {c : Context} (h : s.ctx? = some c) (q : Reaction) :
    (s.react c q).ctx? = some (c.react q) :=
  List.getElem?_set_self (List.getElem?_eq_some_iff.1 h).1

/-- Settles O31, by the two reactions of a ready context. -/
theorem selectorChosenByCrcCommands : Obligations.SelectorChosenByCrcCommands := by
  unfold Obligations.SelectorChosenByCrcCommands
  intro i s t c c' hr h hc'
  rw [exec_eq_react hr.1] at h
  cases h
  rw [State.ctx?_react hr.1] at hc'
  cases hc'
  rcases Context.commandReaction_of_ready hr.2 s.sel s.cap i with ⟨code, info, hq⟩ | ⟨e, he, hq⟩
  · rw [hq]
    exact ⟨fun h0 => absurd h0 code.code_ne_none, fun _ => rfl⟩
  · rw [hq]
    have hnone : (c.apply e).fault = faultNone := (Context.apply_of_ne_fault he c).1.trans hr.2
    exact ⟨fun _ => Reaction.selAfter_act e _ s.sel s.cap, fun hne => absurd hnone hne⟩

/-- Settles O32: the tests of R259 in their order. -/
theorem probeChoosesBackend : Obligations.ProbeChoosesBackend := by
  unfold Obligations.ProbeChoosesBackend
  intro cap
  refine ⟨fun hx86 => if_pos hx86, fun hx86 harm => ?_, fun hx86 harm => ?_, rfl, rfl, rfl, rfl⟩
  · rw [probe, capX86Crc, hx86, capArmCrc, harm]
    rfl
  · rw [probe, capX86Crc, hx86, capArmCrc, harm]
    rfl

end Sys2Proof.Machine
end

/-! SUPPORT. The seed and the padding of the 256-bit family (spec R250–R253, R263). -/
section
namespace Sys2Proof.Machine

/-! ### The two sides of 240 bytes -/

section Digests
variable {S : ByteSeq}

theorem hash256CrcSeeded_of_240_le_len (hlo : 240 ≤ S.len) (seed : Word32) :
    hash256CrcSeeded S seed = crc256Long S seed := if_pos hlo

theorem hash256CrcSeeded_of_len_lt_240 (hhi : S.len < 240) (seed : Word32) :
    hash256CrcSeeded S seed = crc256Long (pad240 S) (~~~S.n32) := if_neg hhi.not_ge

/-- The digest is a function of the seed's value on long inputs only (spec R250). -/
theorem hash256CrcSeeded_seed_congr {seed seed' : Word32} (h : S.len < 240 ∨ seed = seed') :
    hash256CrcSeeded S seed = hash256CrcSeeded S seed' := by
  rcases h with hhi | rfl
  · rw [hash256CrcSeeded_of_len_lt_240 hhi, hash256CrcSeeded_of_len_lt_240 hhi]
  · rfl

end Digests

/-! ### The seed register -/

/-- What a completing command leaves does not depend on what the executing context was replaced by. -/
theorem State.setCtx_selChosen_done (s : State) (c c' : Context) (d : Digest) :
    (s.setCtx c).selChosen.done c' d = s.selChosen.done c' d := by
  simp only [State.done, State.selChosen, State.setCtx_ctxs, State.setCtx_cur, List.set_set]
  rfl

/-- With SEED0 and IN written, HASH256_CRC_SEED completes on any value of SEED0. -/
theorem exec_hash256CrcSeed_of_seed0 {s : State} {c : Context} (hr : s.Ready c) (hw : c.inBuf.written = true)
    (v : Word64) :
    exec .hash256CrcSeed (s.setCtx { c with seed0 := { value := v, written := true } }) =
      .next (s.selChosen.done { c with seed0 := { value := v, written := true } }
        (hash256CrcSeeded c.input v.low32)) := by
  have hready : (s.setCtx { c with seed0 := { value := v, written := true } }).Ready
      { c with seed0 := { value := v, written := true } } := ⟨State.ctx?_setCtx hr.1 _, hr.2⟩
  have hs : Context.Supplied { c with seed0 := { value := v, written := true } } .hash256CrcSeed := by
    simpa [Context.Supplied, readsOf, Context.isWritten, Context.opReg] using hw
  rw [exec_completes_of_usesCrc hready rfl rfl hs, State.setCtx_selChosen_done]
  rfl

/-- Settles O38: both runs complete, with digests that the two seeds make equal. -/
theorem seedBitsIgnored256 : Obligations.SeedBitsIgnored256 := by
  unfold Obligations.SeedBitsIgnored256
  intro s c v v' hr hw h
  have hdigest : hash256CrcSeeded c.input v.low32 = hash256CrcSeeded c.input v'.low32 := hash256CrcSeeded_seed_congr h
  refine ⟨hash256CrcSeeded c.input v.low32, ?_, ?_⟩
  · rw [exec_hash256CrcSeed_of_seed0 hr hw, State.setCtx_selChosen_done]
  · rw [exec_hash256CrcSeed_of_seed0 hr hw, State.setCtx_selChosen_done, hdigest]

/-! ### The padding -/

theorem pad240_byte_of_lt {S : ByteSeq} {i : Nat} (h : i < S.len) : (pad240 S).byte i = S.byte i := if_pos h

theorem pad240_byte_of_le {S : ByteSeq} {i : Nat} (h : S.len ≤ i) : (pad240 S).byte i = 0#8 := if_neg h.not_gt

/-- The PAD of a loaded input holds what loading the input and zeros up to 240 bytes gives (spec R251). -/
theorem pad240_agreeInside {bs : List Byte} (hhi : bs.length < 240) :
    (pad240 (Memory.seq (Memory.ofBytes bs))).AgreeInside
      (Memory.seq (Memory.ofBytes (bs ++ List.replicate (240 - bs.length) 0#8))) := by
  have hlen : (bs ++ List.replicate (240 - bs.length) 0#8).length = 240 := by
    rw [List.length_append, List.length_replicate]
    omega
  refine ⟨((Memory.length_ofBytes _).trans hlen).symm, fun i (hi : i < 240) => ?_⟩
  have hin : (Memory.seq (Memory.ofBytes bs)).len = bs.length := Memory.length_ofBytes bs
  rw [Memory.seq_byte_ofBytes (hlen.symm ▸ hi)]
  rcases Nat.lt_or_ge i bs.length with hlt | hge
  · rw [pad240_byte_of_lt (hin.symm ▸ hlt), Memory.seq_byte_ofBytes hlt, List.getElem_append_left hlt]
  · rw [pad240_byte_of_le (hin.symm ▸ hge), List.getElem_append_right hge, List.getElem_replicate]

/-- The NOT of a length below 2^32 is its distance from the greatest word. -/
theorem ByteSeq.not_n32 {S : ByteSeq} (h : S.len < 2 ^ 32) : ~~~S.n32 = BitVec.ofNat 32 (0xFFFFFFFF - S.len) := by
  apply BitVec.eq_of_toNat_eq
  rw [ByteSeq.n32, BitVec.toNat_not, BitVec.toNat_ofNat, BitVec.toNat_ofNat]
  omega

/-- Settles O57: the long algorithm reads the PAD inside its 240 bytes, where it is the padded input. -/
theorem shortInputsArePadded : Obligations.ShortInputsArePadded := by
  unfold Obligations.ShortInputsArePadded
  refine fun bs seed => ⟨fun hlo => ?_, fun hhi => ?_⟩
  · exact hash256CrcSeeded_of_240_le_len (by simpa using hlo) seed
  · have hlen : (Memory.seq (Memory.ofBytes bs)).len = bs.length := Memory.length_ofBytes bs
    rw [hash256CrcSeeded_of_len_lt_240 (by omega), (pad240_agreeInside hhi).crc256Long_eq le_rfl,
      ByteSeq.not_n32 (by omega), hlen]

/-! ### The words x, y and z -/

theorem Word32.zext64_lt (v : Word32) : v.zext64.toNat < 2 ^ 32 := by
  rw [Word32.zext64, BitVec.toNat_setWidth_of_le (by decide)]
  exact v.isLt

/-- The CRC32C step gives a zero-extended 32-bit word (spec R124). -/
theorem crc32cU64_lt (crc data : Word64) : (crc32cU64 crc data).toNat < 2 ^ 32 := Word32.zext64_lt _

/-- Settles O56: x starts as a zero-extended seed and y, z as 0; a chunk sets all three by the CRC32C step. -/
theorem crcWordsStayBelow32Bits : Obligations.CrcWordsStayBelow32Bits := by
  unfold Obligations.CrcWordsStayBelow32Bits
  refine ⟨fun S seed => ⟨Word32.zext64_lt seed, Word32.zext64_lt 0, Word32.zext64_lt 0⟩, fun S q r st => ⟨?_, ?_, ?_⟩⟩
  all_goals exact crc32cU64_lt _ _

end Sys2Proof.Machine
end

/-! SUPPORT. Faults of a command (spec 30_encoding R97, 60_exceptions R290–R295): which read is recorded, when an offset
is, and that nothing but FAULT and FAULT_INFO is written. -/
section
namespace Sys2Proof.Machine

/-! ### Every command answers -/

/-- Settles O20: a command of an existing context is the reaction of that context. -/
theorem execNeverRefuses : Obligations.ExecNeverRefuses := by
  unfold Obligations.ExecNeverRefuses
  intro i s
  cases hc : s.ctx? with
  | none => exact .inr ⟨rfl, exec_no_ctx hc i⟩
  | some c => exact .inl ⟨_, exec_eq_react hc i⟩

/-! ### The first unwritten read -/

/-- The reads of a command stand in id order (spec R97). -/
theorem readsOf_pairwise_id_lt (i : Instr) : (readsOf i).Pairwise fun q r => q.id < r.id := by
  cases i with
  | mov | rotr64 | rotr32 => exact List.pairwise_singleton _ _
  | _ => decide

/-- In a list in id order, the first missing read is the one with every smaller id written. -/
theorem Context.firstUnwritten_of_pairwise {c : Context} {reads : List Source} {r : Source}
    (hs : reads.Pairwise fun q r => q.id < r.id) (hr : r ∈ reads) (hu : c.isWritten r = false)
    (hw : ∀ q ∈ reads, q.id < r.id → c.isWritten q = true) : c.firstUnwritten reads = some r := by
  obtain ⟨front, back, rfl⟩ := List.append_of_mem hr
  have hlt : ∀ q ∈ front, q.id < r.id := fun q hq => (List.pairwise_append.1 hs).2.2 q hq r List.mem_cons_self
  refine List.find?_eq_some_iff_append.2 ⟨by simp [hu], front, back, rfl, fun q hq => ?_⟩
  simp [hw q (List.mem_append_left _ hq) (hlt q hq)]

/-- Settles O16: the reads are checked in id order, so the read given is the one found. -/
theorem unwrittenReadFaults : Obligations.UnwrittenReadFaults := by
  unfold Obligations.UnwrittenReadFaults
  refine ⟨fun i s c r hi hready hr hu hw => ?_, fun dst src => ⟨rfl, by cases src <;> rfl⟩⟩
  have hfirst := Context.firstUnwritten_of_pairwise (readsOf_pairwise_id_lt i) hr hu hw
  rw [exec_eq_command hi, State.command_unwritten hready hfirst]
  rfl

/-! ### The fault of a rule -/

/-- A rule that faults does not initialise SEL (spec R294). -/
theorem State.afterRule_of_fault {s : State} {i : Instr} {c : Context} {code : FaultCode} {info : Word64}
    (h : effectOf s.sel s.cap c i = .fault code info) : s.afterRule i c = s.raise c code info := by
  have hcrc : usesCrc i c = false :=
    Bool.eq_false_iff.2 fun hu => effectOf_ne_fault_of_usesCrc hu s.sel s.cap code info h
  rw [State.afterRule, h, State.initSelFor, hcrc]
  rfl

/-- A read at ARG0 that ends past IN records its offset (spec R293). -/
theorem Context.readEffect_of_len_lt {c : Context} {width : Nat} (h : c.len < c.arg0.value.toNat + width)
    (rule : Nat → Digest) : c.readEffect width rule = .fault .outOfBounds c.arg0.value :=
  if_neg fun hb => h.not_ge (of_decide_eq_true hb)

/-- The same of a command that reads at ARG0. -/
theorem effectOf_of_len_lt {i : Instr} {width : Nat} {c : Context} (hi : readWidth i = some width)
    (h : c.len < c.arg0.value.toNat + width) (sel : Selector) (cap : BitVec 2) :
    effectOf sel cap c i = .fault .outOfBounds c.arg0.value := by
  cases i with
  | readle64 | readle32 | weakhash32 =>
    cases hi
    simp only [effectOf, Context.readEffect_of_len_lt h]
  | _ => cases hi

/-- A command that reads no bytes at ARG0 has no OUT_OF_BOUNDS to record (spec R293). -/
theorem effectOf_ne_outOfBounds {i : Instr} (hi : readWidth i = none) (sel : Selector) (cap : BitVec 2) (c : Context)
    (info : Word64) : effectOf sel cap c i ≠ .fault .outOfBounds info := by
  cases i with
  | readle64 | readle32 | weakhash32 => cases hi
  | rotr32 r =>
    simp only [effectOf]
    split <;> exact nofun
  | _ => exact nofun

theorem Context.commandReaction_ne_outOfBounds {i : Instr} (hi : readWidth i = none) (sel : Selector) (cap : BitVec 2)
    (c : Context) (info : Word64) (crc : Bool) :
    c.commandReaction sel cap i ≠ .act (.fault .outOfBounds info) crc := by
  intro h
  rcases Context.commandReaction_eq_act h with ⟨-, he, -⟩ | ⟨r, he, -⟩ | ⟨he, -⟩
  · cases he
  · cases he
  · exact effectOf_ne_outOfBounds hi sel cap c info he.symm

/-! ### A command that leaves a fault -/

/-- A command that leaves a ready context faulted reacted with a fault, and the next state is that fault taken. -/
theorem exec_leaves_fault {i : Instr} {s t : State} {c c' : Context} (hr : s.Ready c) (h : exec i s = .next t)
    (hc' : t.ctx? = some c') (hf : c'.fault ≠ faultNone) :
    ∃ code info, c.commandReaction s.sel s.cap i = .act (.fault code info) false ∧
      t = s.raise c code info ∧ c' = c.raise code info := by
  rw [exec_eq_react hr.1] at h
  cases h
  rw [State.ctx?_react hr.1] at hc'
  cases hc'
  rcases Context.commandReaction_of_ready hr.2 s.sel s.cap i with ⟨code, info, hq⟩ | ⟨e, he, hq⟩
  · exact ⟨code, info, hq, by rw [hq, State.react_fault], by rw [hq]; rfl⟩
  · rw [hq] at hf
    exact absurd ((Context.apply_of_ne_fault he c).1.trans hr.2) hf

/-- Settles O17: the effect of the three reads by their bound, and every other command by its reaction. -/
theorem outOfBoundsReadFaults : Obligations.OutOfBoundsReadFaults := by
  unfold Obligations.OutOfBoundsReadFaults
  refine ⟨fun i w s c hi hr hs hlt => ?_, fun i s t c c' hi hr h hc' hf => ?_⟩
  · rw [exec_supplied hr hs, State.afterRule_of_fault (effectOf_of_len_lt hi hlt s.sel s.cap)]
    rfl
  · have hne : c'.fault ≠ faultNone := hf ▸ FaultCode.outOfBounds.code_ne_none
    obtain ⟨code, info, hq, -, rfl⟩ := exec_leaves_fault hr h hc' hne
    obtain rfl : code = .outOfBounds := FaultCode.code_injective hf
    exact Context.commandReaction_ne_outOfBounds hi s.sel s.cap c info false hq

theorem FaultCode.code_cases (code : FaultCode) : code.code = 1#8 ∨ code.code = 2#8 ∨ code.code = 3#8 := by
  cases code <;> decide

/-- Settles O18: a command that leaves a fault is that fault taken. -/
theorem faultIsPrecise : Obligations.FaultIsPrecise := by
  unfold Obligations.FaultIsPrecise
  intro i s t c c' hr h hc' hf
  obtain ⟨code, info, -, rfl, -⟩ := exec_leaves_fault hr h hc' hf
  exact ⟨code.code, info, code.code_cases, State.raise_eq_faultTaken s c code info⟩

end Sys2Proof.Machine
end

/-! SUPPORT. A core with no line pending (spec 70_reset_and_hazards R322): it waits. -/
section
namespace Sys2Proof.Machine

/-- Settles O6: `step` looks at the pending lines first and, with none to take, answers the state it was given. -/
theorem coreWaitsWithoutLine : Obligations.CoreWaitsWithoutLine := by
  unfold Obligations.CoreWaitsWithoutLine
  intro s hs
  rw [step, hs]

end Sys2Proof.Machine
end
